-- ==== Sys2Proof/Word.lean ====
section
/-! DEFINITION. The word types of the QS8 and the plainest arithmetic on them (R5, R9). -/

namespace Sys2Proof

/-- A byte of memory. -/
abbrev Byte := BitVec 8
/-- A 32-bit register or memory word. -/
abbrev Word := BitVec 32
/-- A scalar register, a flag count, a Compass time: 64 bits. -/
abbrev Dword := BitVec 64
/-- A device physical address: 48 bits (R16). -/
abbrev Addr := BitVec 48
/-- A register-space offset: 25 bits, 32 MiB (R441). -/
abbrev RegOff := BitVec 25
/-- A vector register: 512 bytes, byte 0 in the low bits (R5). -/
abbrev VReg := BitVec 4096

/-- Two to the power `n`. -/
def pow2 (n : Nat) : Nat := Nat.pow 2 n

/-- Bits `[lo + w - 1 : lo]` of a number (R5). -/
def bits (x lo w : Nat) : Nat := (x / pow2 lo) % pow2 w

/-- Bit `i` of a number. -/
def bit (x i : Nat) : Bool := Nat.testBit x i

/-- The low `w` bits of a number read as a two's complement integer. -/
def sgn (w x : Nat) : Int :=
  let y := x % pow2 w
  if y < pow2 (w - 1) then (y : Int) else (y : Int) - (pow2 w : Int)

/-- The two's complement of an integer in `w` bits, as a number (R9: `mod` is never negative). -/
def unsgn (w : Nat) (x : Int) : Nat := (x % (pow2 w : Int)).toNat

/-- One or zero. -/
def b2n (b : Bool) : Nat := if b then 1 else 0

/-- Add to a 32-bit counter that wraps. -/
def wrap32 (n : Nat) : Nat := n % pow2 32

/-- A 32-bit counter that saturates. -/
def sat32 (n : Nat) : Nat := Nat.min n (pow2 32 - 1)

/-- `x` divided by `y`, rounded up. -/
def ceilDiv (x y : Nat) : Nat := (x + y - 1) / y

end Sys2Proof
end

