-- ==== Sys2Proof/Machine/Numeric.lean ====
section
/-! DEFINITION. The sixteen formats of chapter 3, exact values, rounding and conversion (R70 to R74, R89 to R92). -/

namespace Sys2Proof.Machine

/-- The formats named by the 4-bit code FMT (R70, Tables 3.1 and 3.2). -/
inductive Fmt where
  | int2 | int4 | int8 | uint8 | int16 | int32
  | fp4 | fp6e2m3 | fp6e3m2 | fp8e4m3 | fp8e5m2 | bf16 | fp16 | fp32
  | cb3 | cb4
  deriving DecidableEq, Repr

/-- The format of a code (R70). -/
def Fmt.ofCode (c : Nat) : Fmt :=
  match c % 16 with
  | 0 => .int2 | 1 => .int4 | 2 => .int8 | 3 => .uint8 | 4 => .int16 | 5 => .int32
  | 6 => .fp4 | 7 => .fp6e2m3 | 8 => .fp6e3m2 | 9 => .fp8e4m3 | 10 => .fp8e5m2
  | 11 => .bf16 | 12 => .fp16 | 13 => .fp32 | 14 => .cb3 | _ => .cb4

/-- The width of an element in bits (Tables 3.1 and 3.2). -/
def Fmt.width : Fmt → Nat
  | .int2 => 2 | .int4 => 4 | .int8 => 8 | .uint8 => 8 | .int16 => 16 | .int32 => 32
  | .fp4 => 4 | .fp6e2m3 => 6 | .fp6e3m2 => 6 | .fp8e4m3 => 8 | .fp8e5m2 => 8
  | .bf16 => 16 | .fp16 => 16 | .fp32 => 32 | .cb3 => 3 | .cb4 => 4

/-- The integer formats of Table 3.1, indices apart. -/
def Fmt.isInt : Fmt → Bool
  | .int2 | .int4 | .int8 | .uint8 | .int16 | .int32 => true
  | _ => false

def Fmt.isFp8 : Fmt → Bool
  | .fp8e4m3 | .fp8e5m2 => true
  | _ => false

def Fmt.isCb : Fmt → Bool
  | .cb3 | .cb4 => true
  | _ => false

/-- The smallest and largest value of an integer format (Table 3.1). -/
def Fmt.intMin : Fmt → Int
  | .uint8 => 0
  | f => -(pow2 (f.width - 1) : Int)
def Fmt.intMax : Fmt → Int
  | .uint8 => 255
  | f => (pow2 (f.width - 1) : Int) - 1

/-- Which codes of a floating-point format are not finite (Table 3.2). -/
inductive FpSpecial where
  | ieee   -- all-ones exponent: infinity with a zero fraction, NaN otherwise
  | e4m3   -- S.1111.111 is NaN, there is no infinity
  | finite -- every code is a finite value
  deriving DecidableEq, Repr

/-- A floating-point layout: exponent bits, fraction bits, bias (Table 3.2). -/
structure FpFmt where
  eb : Nat
  mb : Nat
  bias : Int
  special : FpSpecial
  deriving DecidableEq, Repr

/-- The layout of a floating-point format (Table 3.2); codebook entries are FP8 E4M3 (R81). -/
def Fmt.fp : Fmt → FpFmt
  | .fp4 => ⟨2, 1, 1, .finite⟩
  | .fp6e2m3 => ⟨2, 3, 1, .finite⟩
  | .fp6e3m2 => ⟨3, 2, 3, .finite⟩
  | .fp8e5m2 => ⟨5, 2, 15, .ieee⟩
  | .bf16 => ⟨8, 7, 127, .ieee⟩
  | .fp16 => ⟨5, 10, 15, .ieee⟩
  | .fp32 => ⟨8, 23, 127, .ieee⟩
  | _ => ⟨4, 3, 7, .e4m3⟩

/-- An exact value: NaN, an infinity, or (−1)^neg × m × 2^e. -/
inductive Val where
  | nan
  | inf (neg : Bool)
  | fin (neg : Bool) (m : Nat) (e : Int)
  deriving DecidableEq, Repr

def Val.zero : Val := .fin false 0 0

/-- The value of an integer. -/
def Val.ofInt (i : Int) : Val := .fin (decide (i < 0)) i.natAbs 0

def Val.isNan : Val → Bool
  | .nan => true
  | _ => false

def Val.isFinite : Val → Bool
  | .fin _ _ _ => true
  | _ => false

def Val.isZero : Val → Bool
  | .fin _ m _ => decide (m = 0)
  | _ => false

/-- The value of a floating-point code (R70). -/
def FpFmt.decode (f : FpFmt) (code : Nat) : Val :=
  let s := bit code (f.eb + f.mb)
  let ex := bits code f.mb f.eb
  let m := bits code 0 f.mb
  let special :=
    match f.special with
    | .ieee => decide (ex = pow2 f.eb - 1)
    | .e4m3 => decide (ex = 15 ∧ m = 7)
    | .finite => false
  if special then
    if f.special = .ieee ∧ m = 0 then .inf s else .nan
  else if ex = 0 then .fin s m (1 - f.bias - (f.mb : Int))
  else .fin s (pow2 f.mb + m) ((ex : Int) - f.bias - (f.mb : Int))

/-- The integer a code of an integer format stands for (R70). -/
def Fmt.toInt (f : Fmt) (code : Nat) : Int :=
  if f = .uint8 then ((code % 256 : Nat) : Int) else sgn f.width code

/-- The value of a code of a format (R70). -/
def Fmt.decode (f : Fmt) (code : Nat) : Val :=
  if f.isInt then Val.ofInt (f.toInt code) else f.fp.decode code

/-- Rounding modes (R89). -/
inductive Rnd where
  | rne | rtz | rhaz
  deriving DecidableEq, Repr

def Rnd.ofCode (c : Nat) : Rnd :=
  match c with
  | 1 => .rtz
  | 2 => .rhaz
  | _ => .rne

/-- n/d rounded to an integer (R89). -/
def roundDiv (r : Rnd) (n d : Nat) : Nat :=
  let q := n / d
  let t := 2 * (n % d)
  match r with
  | .rtz => q
  | .rhaz => if d ≤ t then q + 1 else q
  | .rne => if d < t then q + 1 else if t = d then q + q % 2 else q

/-- The integer part of the base-2 logarithm of n/d, both above 0. -/
def logDiv (n d : Nat) : Int :=
  let l : Int := (Nat.log2 n : Int) - (Nat.log2 d : Int)
  let le : Bool := if 0 ≤ l then decide (d * pow2 l.toNat ≤ n) else decide (d ≤ n * pow2 (-l).toNat)
  if le then l else l - 1

/-- The magnitude n/d × 2^e rounded to `mb` fraction bits, in units not below 2^qmin; the answer is r × 2^q. -/
def roundMag (r : Rnd) (n d : Nat) (e : Int) (mb : Nat) (qmin : Option Int) : Nat × Int :=
  if n = 0 then (0, 0)
  else
    let q0 := logDiv n d + e - (mb : Int)
    let q := match qmin with
      | some m => if q0 < m then m else q0
      | none => q0
    let k := e - q
    if 0 ≤ k then (roundDiv r (n * pow2 k.toNat) d, q)
    else (roundDiv r n (d * pow2 (-k).toNat), q)

/-- Compare m1 × 2^e1 with m2 × 2^e2. -/
def cmpMag (m1 : Nat) (e1 : Int) (m2 : Nat) (e2 : Int) : Ordering :=
  if e1 ≤ e2 then compare m1 (m2 * pow2 (e2 - e1).toNat)
  else compare (m1 * pow2 (e1 - e2).toNat) m2

/-- The largest finite magnitude of a layout (Table 3.2). -/
def FpFmt.maxFin (f : FpFmt) : Nat × Int :=
  match f.special with
  | .ieee => (pow2 (f.mb + 1) - 1, (pow2 f.eb : Int) - 2 - f.bias - (f.mb : Int))
  | .e4m3 => (14, 5)
  | .finite => (pow2 (f.mb + 1) - 1, (pow2 f.eb : Int) - 1 - f.bias - (f.mb : Int))

/-- The exponent of the least significant bit of a subnormal. -/
def FpFmt.qmin (f : FpFmt) : Int := 1 - f.bias - (f.mb : Int)

/-- The code of a magnitude r × 2^q that the layout holds, with its sign. -/
def FpFmt.pack (f : FpFmt) (neg : Bool) (r : Nat) (q : Int) : Nat :=
  let s := b2n neg * pow2 (f.eb + f.mb)
  if r = 0 then s
  else
    let r' := if pow2 (f.mb + 1) ≤ r then r / 2 else r
    let q' := if pow2 (f.mb + 1) ≤ r then q + 1 else q
    if r' < pow2 f.mb then s + r'
    else s + (q' + (f.mb : Int) + f.bias).toNat * pow2 f.mb + (r' - pow2 f.mb)

/-- The canonical NaN of a layout that has one (R73); code 0 where there is none (R90). -/
def FpFmt.nanCode (f : FpFmt) : Nat :=
  match f.special with
  | .ieee => (pow2 f.eb - 1) * pow2 f.mb + pow2 (f.mb - 1)
  | .e4m3 => 0x7F
  | .finite => 0

/-- The code of an infinity in a layout that has one. -/
def FpFmt.infCode (f : FpFmt) (neg : Bool) : Nat :=
  b2n neg * pow2 (f.eb + f.mb) + (pow2 f.eb - 1) * pow2 f.mb

/-- What a conversion gives (R90): the code, whether it counted a clip, and the flags NAN_OUT and INF_IN. -/
structure Conv where
  code : Nat
  clip : Bool
  nanOut : Bool
  infIn : Bool
  deriving DecidableEq, Repr

/-- The overflow result of a floating-point target (R91, Table 3.6). -/
def FpFmt.overflow (f : FpFmt) (rnd : Rnd) (novf neg inf : Bool) : Nat :=
  match f.special with
  | .finite => f.pack neg f.maxFin.1 f.maxFin.2
  | .e4m3 => if novf then 0x7F else f.pack neg f.maxFin.1 f.maxFin.2
  | .ieee =>
    if rnd = .rtz ∧ inf = false then f.pack neg f.maxFin.1 f.maxFin.2 else f.infCode neg

/-- Conversion of n/d × 2^e, of sign neg, to a floating-point target (R90 step 4). -/
def FpFmt.convRat (f : FpFmt) (rnd : Rnd) (novf neg : Bool) (n d : Nat) (e : Int) : Conv :=
  let (r, q) := roundMag rnd n d e f.mb (some f.qmin)
  if cmpMag r q f.maxFin.1 f.maxFin.2 = .gt then ⟨f.overflow rnd novf neg false, true, false, false⟩
  else ⟨f.pack neg r q, false, false, false⟩

/-- Conversion of a value to an integer format (R90 step 3). -/
def Fmt.convInt (f : Fmt) (rnd : Rnd) (x : Val) : Conv :=
  match x with
  | .nan => ⟨0, false, true, false⟩
  | .inf neg => ⟨unsgn f.width (if neg then f.intMin else f.intMax), true, false, true⟩
  | .fin neg m e =>
    let r := if 0 ≤ e then m * pow2 e.toNat else roundDiv rnd m (pow2 (-e).toNat)
    let i : Int := if neg then -(r : Int) else (r : Int)
    if i < f.intMin then ⟨unsgn f.width f.intMin, true, false, false⟩
    else if f.intMax < i then ⟨unsgn f.width f.intMax, true, false, false⟩
    else ⟨unsgn f.width i, false, false, false⟩

/-- A value times 2^k, exactly. -/
def Val.scale (x : Val) (k : Int) : Val :=
  match x with
  | .fin neg m e => .fin neg m (e + k)
  | y => y

/-- Conversion of a value to a format at scale exponent `s` (R90, R91). -/
def convert (f : Fmt) (rnd : Rnd) (novf : Bool) (s : Int) (x : Val) : Conv :=
  let y := x.scale (-s)
  if f.isInt then f.convInt rnd y
  else
    match y with
    | .nan => ⟨f.fp.nanCode, false, true, false⟩
    | .inf neg => ⟨f.fp.overflow rnd novf neg true, true, false, true⟩
    | .fin neg m e => f.fp.convRat rnd novf neg m 1 e

/-- A value rounded once to a format, as a value (R152). -/
def Val.round (f : Fmt) (rnd : Rnd) (x : Val) : Val := f.decode (convert f rnd false 0 x).code

/-- Rounding to FP32, to nearest even (fl of R57, R59). -/
def Val.fl (x : Val) : Val := x.round .fp32 .rne

def Val.neg : Val → Val
  | .nan => .nan
  | .inf s => .inf (!s)
  | .fin s m e => .fin (!s) m e

def Val.abs : Val → Val
  | .nan => .nan
  | .inf _ => .inf false
  | .fin _ m e => .fin false m e

/-- The exact sum. A zero sum of operands of different sign is +0 (IEEE 754 with the rounding modes of R89). -/
def Val.add (x y : Val) : Val :=
  match x, y with
  | .nan, _ => .nan
  | _, .nan => .nan
  | .inf a, .inf b => if a = b then .inf a else .nan
  | .inf a, .fin _ _ _ => .inf a
  | .fin _ _ _, .inf b => .inf b
  | .fin s1 m1 e1, .fin s2 m2 e2 =>
    let e := if e1 ≤ e2 then e1 else e2
    let a : Nat := m1 * pow2 (e1 - e).toNat
    let b : Nat := m2 * pow2 (e2 - e).toNat
    if s1 = s2 then .fin s1 (a + b) e
    else if a = b then .fin false 0 e
    else if b < a then .fin s1 (a - b) e
    else .fin s2 (b - a) e

def Val.sub (x y : Val) : Val := x.add y.neg

/-- The exact product. -/
def Val.mul (x y : Val) : Val :=
  match x, y with
  | .nan, _ => .nan
  | _, .nan => .nan
  | .inf a, .inf b => .inf (a != b)
  | .inf a, .fin s m _ => if m = 0 then .nan else .inf (a != s)
  | .fin s m _, .inf b => if m = 0 then .nan else .inf (s != b)
  | .fin s1 m1 e1, .fin s2 m2 e2 => .fin (s1 != s2) (m1 * m2) (e1 + e2)

/-- Order of two values that are not NaN, with −0 equal to +0; none if either is NaN. -/
def Val.cmp (x y : Val) : Option Ordering :=
  match x, y with
  | .nan, _ => none
  | _, .nan => none
  | .inf a, .inf b => some (if a = b then .eq else if a then .lt else .gt)
  | .inf a, .fin _ _ _ => some (if a then .lt else .gt)
  | .fin _ _ _, .inf b => some (if b then .gt else .lt)
  | .fin s1 m1 e1, .fin s2 m2 e2 =>
    if m1 = 0 ∧ m2 = 0 then some .eq
    else if s1 = s2 then (if s1 then some (cmpMag m2 e2 m1 e1) else some (cmpMag m1 e1 m2 e2))
    else if m1 = 0 then some (if s2 then .gt else .lt)
    else some (if s1 then .lt else .gt)

/-- x < y, false when either is NaN. -/
def Val.lt (x y : Val) : Bool := decide (x.cmp y = some .lt)

def Val.isNeg : Val → Bool
  | .nan => false
  | .inf s => s
  | .fin s _ _ => s

/-- The greater of two values: a NaN operand gives NaN, −0 is below +0 (Table 5.7). -/
def Val.max (x y : Val) : Val :=
  match x.cmp y with
  | none => .nan
  | some .lt => y
  | some .gt => x
  | some .eq => if x.isNeg then y else x

/-- The lesser of two values: a NaN operand gives NaN, −0 is below +0 (Table 5.7). -/
def Val.min (x y : Val) : Val :=
  match x.cmp y with
  | none => .nan
  | some .lt => x
  | some .gt => y
  | some .eq => if x.isNeg then x else y

/-- An FP32 addition, multiplication, subtraction, each rounded once to nearest even. -/
def Val.fadd (x y : Val) : Val := (x.add y).fl
def Val.fsub (x y : Val) : Val := (x.sub y).fl
def Val.fmul (x y : Val) : Val := (x.mul y).fl

/-- The FP32 code of a value, rounded to nearest even; every NaN is 0x7FC0_0000 (R60, R73). -/
def Val.code32 (x : Val) : Word := BitVec.ofNat 32 (convert .fp32 .rne false 0 x).code

/-- The value of an FP32 word. -/
def fp32 (w : Word) : Val := Fmt.fp32.decode w.toNat

/-- The largest integer not above a finite value (R65, R9). -/
def Val.floor : Val → Int
  | .fin neg m e =>
    if 0 ≤ e then (if neg then -((m * pow2 e.toNat : Nat) : Int) else ((m * pow2 e.toNat : Nat) : Int))
    else
      let d := pow2 (-e).toNat
      if neg then -((ceilDiv m d : Nat) : Int) else ((m / d : Nat) : Int)
  | _ => 0

/-- A sum by the fixed pairwise tree of R100 and R156: element i of the next level is op(a[2i], a[2i + 1]). -/
def treeLevel {α : Type} (op : α → α → α) : List α → List α
  | a :: b :: t => op a b :: treeLevel op t
  | l => l

/-- `levels` levels of the pairwise tree. -/
def treeReduce {α : Type} (op : α → α → α) : Nat → List α → List α
  | 0, l => l
  | k + 1, l => treeReduce op k (treeLevel op l)

/-- The integer value of a bit-vector element of a signed or unsigned format, wrapped or saturated to the format
(R152: UINT8 always saturates). -/
def Fmt.fitInt (f : Fmt) (sat : Bool) (i : Int) : Nat :=
  if sat || f = .uint8 then
    unsgn f.width (if i < f.intMin then f.intMin else if f.intMax < i then f.intMax else i)
  else unsgn f.width i

end Sys2Proof.Machine
end

