-- ==== Sys2Proof/CommandTypes.lean ====
section
/-! DEFINITION. The operand types of the commands: what a command's sender names, and what the world outside the block
supplies with it. -/

namespace Sys2Proof

open Sys2Proof.Machine

/-- The two host ports (R281). -/
inductive Port where
  | a | b
  deriving DecidableEq, Repr

/-- 0 for HP-A, 1 for HP-B: the index of a port's copy of a per-port register (R451). -/
def Port.idx : Port → Nat
  | .a => 0
  | .b => 1

def Port.other : Port → Port
  | .a => .b
  | .b => .a

/-- Which checker reports a datapath fault (Table 11.6, kinds 1 to 3). -/
inductive CheckKind where
  | residue | checkLane | duplicate
  deriving DecidableEq, Repr

/-- A checked value that a datapath fault corrupts (R321), each of one accumulator entry and column: the column sum as it
leaves the array (R317), the accumulator word (R317), the working value after bias, after the shift, after activation, and
the converted code (R318), the squared error that enters a statistics slot (R318); or the result of one vector lane
(R319). -/
inductive Site where
  | sum (arr : Fin 4) (ent : Fin 1024) (col : Fin 64)
  | add (arr : Fin 4) (ent : Fin 1024) (col : Fin 64)
  | bias (arr : Fin 4) (ent : Fin 1024) (col : Fin 64)
  | shift (arr : Fin 4) (ent : Fin 1024) (col : Fin 64)
  | act (arr : Fin 4) (ent : Fin 1024) (col : Fin 64)
  | code (arr : Fin 4) (ent : Fin 1024) (col : Fin 64)
  | stat (arr : Fin 4) (ent : Fin 1024)
  | lane (i : Fin 128)
  deriving DecidableEq, Repr

/-- A corrupted value: where, and the bits of it that are inverted. -/
structure Flip where
  site : Site
  mask : Nat
  deriving DecidableEq, Repr

/-- The physical errors a step meets, which are no effect of any command: words of memory that have become uncorrectable
(R186, R188), an uncorrectable word of a register file or instruction cache, accumulator entries of its core that have become
uncorrectable, corrected errors (unit, how many, address), duplicated copies that differ (R320), and values of its core's
arrays, drain path or vector unit that a fault corrupts when they are next formed (R317 to R319). -/
structure Phys where
  bad  : List Nat := []
  reg  : Bool := false
  acc  : List (Fin 4 × Fin 1024) := []
  corr : List (Nat × Nat × Nat) := []
  dup  : Bool := false
  flips : List Flip := []
  /-- The mesh cannot take the step's Trail record within 64 ACLK (R139). -/
  trailBusy : Bool := false
  deriving DecidableEq, Repr

/-- Where a slot operation issues: the core, and the physical errors it meets. -/
structure At where
  core : Fin 8
  ph   : Phys := {}
  deriving DecidableEq, Repr

/-- Where a DMA engine makes a transfer: its core, the physical errors it meets, and which of the engine's unfinished
descriptors goes on, counted from the oldest (R198). -/
structure DmaAt extends At where
  desc : Fin 32 := 0
  deriving DecidableEq, Repr

/-- A write of QM_FLAG_SET: the value, and whether a clear of the same flag comes in the same NCLK cycle (R289). -/
structure FlagSet where
  value : Word
  both  : Bool := false
  deriving DecidableEq, Repr

/-- COND of a branch (R149). -/
inductive Cond where
  | eq | ne | lt | ge | ltu | geu
  deriving DecidableEq, Repr

/-- The special registers of Table 4.5. -/
inductive Spec where
  | coreId | gangSize | contextId | queueId | jobTag | layerCount | retiredLo | retiredHi | cycleLo | cycleHi
  | physCore | timeLo | timeHi | replays | sticky | lc (k : Fin 4) | loopDepth
  deriving DecidableEq, Repr

/-- The fields of a vector operation that every form has (Table 5.5). -/
structure VF where
  vd : Fin 32
  va : Fin 32 := 0
  vb : Fin 32 := 0
  vc : Fin 32 := 0
  et : Fmt := .fp32
  pen : Bool := false
  p : Fin 8 := 0
  rnd : Rnd := .rne
  novf : Bool := false
  sat : Bool := false
  deriving DecidableEq, Repr

/-- The VCMP selector (Table 5.7). -/
inductive VCmp where
  | eq | ne | lt | le | gt | ge
  deriving DecidableEq, Repr

/-- The PLOG selector (Table 5.7). -/
inductive PLogOp where
  | and | or | xor | andNot
  deriving DecidableEq, Repr

/-- The VRED selector (R156). -/
inductive RedOp where
  | sum | max | min
  deriving DecidableEq, Repr

/-- The LDS sizes (R164). -/
inductive LdSize where
  | u8 | i8 | u16 | i16 | u32 | i32 | d64
  deriving DecidableEq, Repr

/-- The element width of a predicated VST (Table 5.14). -/
inductive StW where
  | w8 | w16 | w32
  deriving DecidableEq, Repr

/-- The row kinds of SROW (Table 5.11). -/
inductive RowKind where
  | main | side | shifts
  deriving DecidableEq, Repr

/-- A fabric packet (Table 14.1). The payloads of TIME_REQ and TIME_RSP are stamps, whose layout the table does not give. -/
structure FPkt where
  ty   : Nat
  vc   : Nat := 0
  mcast : Bool := false
  hops : Nat := 15
  dst  : Nat := 0
  src  : Nat := 0
  group : Nat := 0
  lseq : Nat := 0
  lack : Nat := 0
  credReq : Nat := 0
  credRsp : Nat := 0
  addr : Nat := 0
  eseq : Nat := 0
  ring : Nat := 0
  start : Bool := false
  /-- A reserved field is not 0. -/
  resv : Bool := false
  payload : List Byte := []
  /-- Stamps in 1/8 ns. -/
  stamps : List Nat := []
  deriving DecidableEq, Repr

/-- One bit of a CRC-32 with the polynomial 0x04C1_1DB7 as IEEE 802.3 uses it: reflected. -/
def crc32Bits : Nat → Nat → Nat
  | 0, c => c
  | k + 1, c => crc32Bits k (if c % 2 = 1 then Nat.xor (c / 2) 0xEDB88320 else c / 2)

/-- The CRC-32 of IEEE 802.3 over bytes. -/
def crc32 (l : List Byte) : Nat :=
  Nat.xor (l.foldl (fun (c : Nat) (b : Byte) => crc32Bits 8 (Nat.xor c b.toNat)) 0xFFFFFFFF) 0xFFFFFFFF

/-- A word of a header, little-endian. -/
def hdrWord (x : Nat) : List Byte := (List.range 4).map (fun (i : Nat) => BitVec.ofNat 8 (bits x (8 * i) 8))

/-- The packet as it goes over the link: the header of Table 14.1 with its CRC, then the payload. -/
def FPkt.bytes (k : FPkt) : List Byte :=
  let h := hdrWord (k.ty % 256 + k.vc % 2 * 256 + b2n k.mcast * 512 + k.hops % 16 * 1024 + k.payload.length * 65536) ++
    hdrWord (k.dst % 4096 + k.src % 4096 * 4096 + k.group % 256 * 16777216) ++
    hdrWord (k.lseq % 65536 + k.lack % 65536 * 65536) ++ hdrWord (k.credReq % 1024 + k.credRsp % 1024 * 1024) ++
    hdrWord (k.addr % 4294967296) ++ hdrWord (k.addr / 4294967296 % 65536) ++
    hdrWord (k.eseq % 65536 + k.ring % 16 * 65536 + b2n k.start * 1048576)
  h ++ hdrWord (crc32 (h ++ k.payload)) ++ k.payload

/-- A transfer on a sensor control bus: device address, register address, data, and their widths in bytes. -/
structure SensorWrite where
  dev  : Nat
  reg  : Nat
  data : Nat
  regBytes : Nat
  dataBytes : Nat
  deriving DecidableEq, Repr

/-- A picture as it is decoded: luma rows and the rows of the two chroma planes. -/
structure Pic where
  w : Nat
  h : Nat
  ten : Bool := false
  y : List (List Nat)
  u : List (List Nat) := []
  v : List (List Nat) := []
  deriving DecidableEq, Repr

/-- A cropping window, in luma samples. -/
structure Crop where
  x : Nat
  y : Nat
  w : Nat
  h : Nat
  deriving DecidableEq, Repr

/-- What the codec says of the first picture of an access unit (H.264, H.265 and AV1 are external standards): its kind, the
slots that its stream declares, its place in display order, its samples, and the 16 × 16 blocks (column, row) that its data
leave unreconstructed. -/
structure AuPic where
  pic  : Pic
  crop : Crop
  /-- A key frame of R267; it is a CRA or BLA picture; a RASL picture. -/
  key  : Bool
  cra  : Bool := false
  rasl : Bool := false
  /-- A profile, tool or format outside Table 9.1. -/
  unsupported : Bool := false
  /-- Monochrome. -/
  mono : Bool := false
  slots : Nat
  order : Nat
  grain : Bool := false
  /-- The entry holds more pictures. -/
  extra : Bool := false
  missing : List (Nat × Nat) := []
  deriving DecidableEq, Repr

/-- What the boot ROM finds (R429 to R431): the straps, whether a flash answers, the LPDDR6 channel that does not train,
the units and the Hamper that fail the self-test of a full start, and the random number generator's health. -/
structure BootIn where
  straps   : BitVec 8 := 0
  flash    : Bool := true
  badChannel : Option (Fin 16) := none
  /-- The LPDDR6 rate that every channel trains at: 0 to 4 for 12,800, 11,200, 9,600, 8,000 and 6,400 MT/s (R187). -/
  rate     : Fin 5 := 0
  badUnits : List (Fin 48) := []
  hamper   : Bool := false
  rngFail  : Bool := false
  deriving DecidableEq, Repr

/-- Commit modes (R27). -/
inductive CommitMode where
  | immediate | atTime | atFrame
  deriving DecidableEq, Repr

/-- How a test of a unit ends: it passes, fails at a pattern, or is aborted. -/
inductive TestEnd where
  | pass
  | fail (pattern : Nat)
  | aborted
  deriving DecidableEq, Repr

end Sys2Proof
end

