-- ==== Sys2Proof/Syntax.lean ====
section
/-! DEFINITION. The commands: one constructor per row of the table of operations and events, in the table's order. A
command's operands are what its sender names and what the world outside the block supplies. -/

namespace Sys2Proof

open Sys2Proof.Machine

/-- The commands. -/
inductive Instr where
  /-- STAGE_WRITE (R25): A port's write to an RWS register stores the value in that port's staging area and sets the register's dirty bit. -/
  | stageWrite (p : Port) (off : BitVec 25) (v : Word)
  /-- CHECK (R26): Commit command CHECK validates every dirty register of the issuing port's staging area as APPLY would judge it and reports the first failure. -/
  | check (p : Port)
  /-- APPLY (R27): Commit command APPLY from the holder of SEM0 is validated and, if accepted, copies the port's dirty set as the single pending commit. -/
  | apply (p : Port) (mode : CommitMode) (cam : Fin 32)
  /-- COMMIT_CANCEL (R30): Commit command CANCEL from the holder of SEM0 ends a pending commit without effect, or reports EMPTY or NO_SEM. -/
  | commitCancel (p : Port)
  /-- DISCARD (R30): Commit command DISCARD clears the issuing port's dirty bits and sets its CODE to OK. -/
  | discard (p : Port)
  /-- BAD_COMMAND (R27): A write of an unassigned CMD value, or an APPLY with MODE 3, reports BAD_COMMAND and does nothing else. -/
  | badCommand (p : Port)
  /-- COMMIT_TAKES_EFFECT (R28): The pending commit takes effect at one TCLK edge (immediately, at a Compass time or at a frame start), updating both ports' status copies. -/
  | commitTakesEffect (frame : Option (Fin 24))
  /-- EXPIRED (R30): GLB_COMMIT_TIMEOUT milliseconds pass after acceptance and the pending commit ends without effect with code EXPIRED. -/
  | expired
  /-- TAKE (R32): A TAKE write starts a capture of the whole snapshot set at one TCLK edge for the writing port. -/
  | take (p : Port)
  /-- SNAP_READY (R32): The snapshot capture completes and the port's status becomes SNAP_READY. -/
  | snapReady (p : Port)
  /-- SNAP_DATA_READ (R33): A read of GLB_SNAP_DATA returns the latched value at GLB_SNAP_ADDR and GLB_SNAP_SEL, or 0 with SNAP_MISS. -/
  | snapDataRead (p : Port)
  /-- BUNDLE_FETCH (R108): The leader's sequencer fetches the next bundle in program order and broadcasts it to every member's issue queue, holding while any queue is full. -/
  | bundleFetch (c : At)
  /-- ICACHE_FILL (R109): An instruction-cache miss completes when the 256-byte block arrives from device memory and the broadcast resumes. -/
  | icacheFill (c : At)
  /-- BUNDLE_DECODE (R111): A member decodes a bundle and checks opcodes, reserved fields and destination conflicts before any slot issues. -/
  | bundleDecode (c : At)
  /-- BUNDLE_RETIRE (R113): A bundle retires once every slot has issued and RETIRED increases. -/
  | bundleRetire (c : At)
  /-- STALL_WATCHDOG (R123): The stall watchdog count reaches CCn_STALL_LIMIT and the gang halts. -/
  | stallWatchdog (leader : Fin 8) (cycles : Nat)
  /-- NOP (R110): Opcode 0 in any slot does nothing. -/
  | nop (c : At) (slot : Fin 6)
  /-- ADD (R148): Scalar add of two registers, wrapping modulo 2^64. -/
  | add (c : At) (sd sa sb : Fin 32)
  /-- SUB (R148): Scalar subtract of two registers. -/
  | sub (c : At) (sd sa sb : Fin 32)
  /-- MUL (R148): Scalar multiply keeping the low 64 bits. -/
  | mul (c : At) (sd sa sb : Fin 32)
  /-- MULH (R148): Scalar signed multiply keeping bits 127 to 64. -/
  | mulh (c : At) (sd sa sb : Fin 32)
  /-- AND (R148): Scalar bitwise AND. -/
  | and (c : At) (sd sa sb : Fin 32)
  /-- OR (R148): Scalar bitwise OR. -/
  | or (c : At) (sd sa sb : Fin 32)
  /-- XOR (R148): Scalar bitwise XOR. -/
  | xor (c : At) (sd sa sb : Fin 32)
  /-- SHL (R148): Scalar shift left by the low six bits of a register. -/
  | shl (c : At) (sd sa sb : Fin 32)
  /-- SHR (R148): Scalar logical shift right. -/
  | shr (c : At) (sd sa sb : Fin 32)
  /-- SRA (R148): Scalar arithmetic shift right. -/
  | sra (c : At) (sd sa sb : Fin 32)
  /-- MIN (R148): Scalar signed minimum. -/
  | min (c : At) (sd sa sb : Fin 32)
  /-- MAX (R148): Scalar signed maximum. -/
  | max (c : At) (sd sa sb : Fin 32)
  /-- MINU (R148): Scalar unsigned minimum. -/
  | minu (c : At) (sd sa sb : Fin 32)
  /-- MAXU (R148): Scalar unsigned maximum. -/
  | maxu (c : At) (sd sa sb : Fin 32)
  /-- SLT (R148): Scalar set-if-less-than, signed. -/
  | slt (c : At) (sd sa sb : Fin 32)
  /-- SLTU (R148): Scalar set-if-less-than, unsigned. -/
  | sltu (c : At) (sd sa sb : Fin 32)
  /-- SEQ (R148): Scalar set-if-equal. -/
  | seq (c : At) (sd sa sb : Fin 32)
  /-- ADDI (R148): Scalar add of a 30-bit immediate. -/
  | addi (c : At) (sd sa : Fin 32) (imm : BitVec 30)
  /-- ANDI (R148): Scalar AND with a sign-extended immediate. -/
  | andi (c : At) (sd sa : Fin 32) (imm : BitVec 30)
  /-- ORI (R148): Scalar OR with a sign-extended immediate. -/
  | ori (c : At) (sd sa : Fin 32) (imm : BitVec 30)
  /-- XORI (R148): Scalar XOR with a sign-extended immediate. -/
  | xori (c : At) (sd sa : Fin 32) (imm : BitVec 30)
  /-- SHLI (R148): Scalar shift left by an immediate. -/
  | shli (c : At) (sd sa : Fin 32) (k : Fin 64)
  /-- SHRI (R148): Scalar logical shift right by an immediate. -/
  | shri (c : At) (sd sa : Fin 32) (k : Fin 64)
  /-- SRAI (R148): Scalar arithmetic shift right by an immediate. -/
  | srai (c : At) (sd sa : Fin 32) (k : Fin 64)
  /-- SLTI (R148): Scalar signed compare with an immediate. -/
  | slti (c : At) (sd sa : Fin 32) (imm : BitVec 30)
  /-- LI (R148): Load a sign-extended 32-bit immediate into a scalar register. -/
  | li (c : At) (sd : Fin 32) (imm : BitVec 32)
  /-- LIH (R148): Load a 32-bit immediate into the upper half of a scalar register. -/
  | lih (c : At) (sd : Fin 32) (imm : BitVec 32)
  /-- AADD (R148): Address register plus scalar register, wrapping modulo 2^48. -/
  | aadd (c : At) (ad aa : Fin 16) (sb : Fin 32)
  /-- AADDI (R148): Address register plus a 32-bit immediate. -/
  | aaddi (c : At) (ad aa : Fin 16) (imm : BitVec 32)
  /-- AMOV (R148): Move the low 48 bits of a scalar register into an address register. -/
  | amov (c : At) (ad : Fin 16) (sb : Fin 32)
  /-- MOVA (R148): Move an address register into a scalar register, zero-extended. -/
  | mova (c : At) (sd : Fin 32) (aa : Fin 16)
  /-- BR (R149): Conditional branch by bundle offset, decided uniformly across the gang. -/
  | br (c : At) (sa sb : Fin 32) (cond : Cond) (off : BitVec 24)
  /-- J (R148): Unconditional branch by bundle offset. -/
  | j (c : At) (off : BitVec 24)
  /-- JR (R148): Branch to the bundle index held in a scalar register. -/
  | jr (c : At) (sa : Fin 32)
  /-- MFS (R149): Read a special register into a scalar register. -/
  | mfs (c : At) (sd : Fin 32) (x : Spec)
  /-- MTS (R149): Write a scalar register to a special register under its access rule (STICKY only). -/
  | mts (c : At) (sb : Fin 32)
  /-- VADD (R152): Element-wise vector add. -/
  | vadd (c : At) (x : VF)
  /-- VSUB (R152): Element-wise vector subtract. -/
  | vsub (c : At) (x : VF)
  /-- VMUL (R152): Element-wise vector multiply. -/
  | vmul (c : At) (x : VF)
  /-- VFMA (R152): Element-wise fused multiply-add with one rounding. -/
  | vfma (c : At) (x : VF)
  /-- VMIN (R153): Element-wise vector minimum. -/
  | vmin (c : At) (x : VF)
  /-- VMAX (R153): Element-wise vector maximum. -/
  | vmax (c : At) (x : VF)
  /-- VABS (R153): Element-wise absolute value. -/
  | vabs (c : At) (x : VF)
  /-- VNEG (R153): Element-wise negation. -/
  | vneg (c : At) (x : VF)
  /-- VAND (R153): Vector bitwise AND. -/
  | vand (c : At) (x : VF)
  /-- VOR (R153): Vector bitwise OR. -/
  | vor (c : At) (x : VF)
  /-- VXOR (R153): Vector bitwise XOR. -/
  | vxor (c : At) (x : VF)
  /-- VSHL (R153): Vector shift left by per-element amounts. -/
  | vshl (c : At) (x : VF)
  /-- VSHR (R153): Vector shift right, arithmetic for signed types. -/
  | vshr (c : At) (x : VF)
  /-- VCMP (R153): Vector compare writing a predicate register. -/
  | vcmp (c : At) (x : VF) (o : VCmp)
  /-- VSEL (R153): Vector select by predicate. -/
  | vsel (c : At) (x : VF)
  /-- VMOV (R153): Vector register copy. -/
  | vmov (c : At) (x : VF)
  /-- VBCAST (R153): Broadcast a scalar register to every vector element. -/
  | vbcast (c : At) (x : VF)
  /-- VEXT (R153): Extract one vector element into a scalar register. -/
  | vext (c : At) (x : VF)
  /-- VIOTA (R153): Write each element's index into the vector. -/
  | viota (c : At) (x : VF)
  /-- PLOG (R153): Logical operation on two predicate registers. -/
  | plog (c : At) (x : VF) (o : PLogOp)
  /-- PSET (R153): Set every bit of a predicate register to an immediate bit. -/
  | pset (c : At) (x : VF) (b : Bool)
  /-- VCVT (R154): Convert vector elements between formats under R90, by part. -/
  | vcvt (c : At) (x : VF) (src : Fmt) (part : Fin 4) (scale : Int)
  /-- VLUT (R155): Apply table-buffer interpolation to each FP32 element. -/
  | vlut (c : At) (x : VF) (tb : Fin 4)
  /-- VRED (R156): Reduce a vector by a fixed pairwise tree into element 0. -/
  | vred (c : At) (x : VF) (o : RedOp)
  /-- VWMAX (R157): Sliding-window maximum over two concatenated vector registers. -/
  | vwmax (c : At) (x : VF) (k : Fin 8) (st : Fin 3)
  /-- VWAVG (R157): Sliding-window average over two concatenated vector registers. -/
  | vwavg (c : At) (x : VF) (k : Fin 8) (st : Fin 3)
  /-- VBOXDEC (R158): Decode 32 boxes from anchors, deltas and scales (compatibility). -/
  | vboxdec (c : At) (x : VF) (tb : Fin 4)
  /-- VNMS (R159): Overlap suppression over up to 32 boxes into a predicate (compatibility). -/
  | vnms (c : At) (x : VF)
  /-- MSTREAM (R161): Stream V weight vectors through the selected arrays into accumulator entries, after queue-entry and issue checks. -/
  | mstream (c : At) (amask : BitVec 4) (add outl feed : Bool) (ent : Fin 1024) (sv : Fin 32) (ad : Fin 16) (se : Fin 32)
  /-- MSWAP (R46): Exchange the active and shadow register sets of the selected arrays. -/
  | mswap (c : At) (amask : BitVec 4)
  /-- MCLR (R163): Clear a range of accumulator entries and set their type tag. -/
  | mclr (c : At) (amask : BitVec 4) (ent : Fin 1024) (sn : Fin 32) (fp : Bool)
  /-- MARD (R163): Copy an accumulator entry's raw words into half of a vector register. -/
  | mard (c : At) (arr : Fin 4) (ent : Fin 1024) (vd : Fin 32) (half : Bool)
  /-- MAWR (R163): Write half of a vector register into an accumulator entry with a type tag. -/
  | mawr (c : At) (arr : Fin 4) (ent : Fin 1024) (va : Fin 32) (half fp : Bool)
  /-- LDS (R164): Scalar load of 1, 2, 4 or 8 bytes. -/
  | lds (c : At) (sd : Fin 32) (aa : Fin 16) (size : LdSize) (imm : BitVec 22)
  /-- VLD (R164): Vector load of 512 bytes. -/
  | vld (c : At) (vd : Fin 32) (aa : Fin 16) (imm : BitVec 25)
  /-- VGTH (R164): Vector gather of 128 32-bit elements from own core memory. -/
  | vgth (c : At) (vd : Fin 32) (aa : Fin 16) (vb : Fin 32)
  /-- SROW (R165): Write one main row, side row or block-shift row into the shadow set of each selected array. -/
  | srow (c : At) (amask : BitVec 4) (aa : Fin 16) (sr : Fin 32) (row : Fin 128) (fmt : Fmt) (kind : RowKind) (ba : Fin 4)
  /-- WGATHER (R167): Build the shadow tile of each selected array from a feature map under the gather descriptor, or probe size with no array. -/
  | wgather (c : At) (amask : BitVec 4) (aa : Fin 16) (sp st : Fin 32)
  /-- WFILL (R170): Append main and side bytes to the core's feed queue, waiting for space. -/
  | wfill (c : At) (am as : Fin 16) (sm ss : Fin 32)
  /-- TLD (R171): Load a table buffer from a 1,040-byte image. -/
  | tld (c : At) (tb : Fin 4) (aa : Fin 16)
  /-- STS (R172): Scalar store of 1, 2, 4 or 8 bytes. -/
  | sts (c : At) (sb : Fin 32) (aa : Fin 16) (size : Fin 4) (imm : BitVec 23)
  /-- VST (R172): Vector store of 512 bytes, optionally predicated. -/
  | vst (c : At) (vb : Fin 32) (aa : Fin 16) (p : Fin 8) (pen : Bool) (w : StW) (imm : BitVec 19)
  /-- VSCT (R172): Vector scatter of 32-bit elements into own core memory. -/
  | vsct (c : At) (vb : Fin 32) (aa : Fin 16) (vc : Fin 32)
  /-- DRAIN (R173): Read accumulator entries through bias, shift, activation, requantisation and optional argmax into memory. -/
  | drain (c : At) (amask : BitVec 4) (ent : Fin 1024) (sn : Fin 32) (ad ao : Fin 16) (stats first last : Bool)
  /-- STATST (R175): Write a range of requantisation statistics slots to memory. -/
  | statst (c : At) (slot : Fin 1024) (sn : Fin 32) (aa : Fin 16)
  /-- LAYER (R132): Layer boundary: wait for arrays, drains and DMA, then record the checkpoint and latch statistics. -/
  | layer (c : At) (nr : Bool)
  /-- LOOP (R127): Open a hardware loop level with a captured count, or skip the body when the count is 0. -/
  | loop (c : At) (sn : Fin 32) (end_ : BitVec 20)
  /-- LCSET (R130): Set the count of a live loop level. -/
  | lcset (c : At) (level : Fin 4) (sn : Fin 32)
  /-- SET (R176): Set a declared host event flag with release semantics, held in the gang until the layer closes. -/
  | set (c : At) (sn : Fin 32)
  /-- WAIT (R176): Wait until a host event flag is set, with acquire semantics. -/
  | wait (c : At) (sn : Fin 32)
  /-- SETL (R177): Increment a gang-local flag with release semantics. -/
  | setl (c : At) (lf : BitVec 8) (sr : Fin 32)
  /-- WAITL (R177): Wait until a local flag reaches a count, with acquire semantics. -/
  | waitl (c : At) (lf : BitVec 8) (sr sn : Fin 32)
  /-- BAR (R178): Gang barrier that issues when every member has reached it and prior stores are visible. -/
  | bar (c : At)
  /-- PHASE (R179): Enter a power phase, closing the previous phase's sample and setting the step demand. -/
  | phase (c : At) (num : BitVec 8)
  /-- DMA (R179): Submit a list of descriptors to the core's DMA engine. -/
  | dma (c : At) (aa : Fin 16) (sn : Fin 32)
  /-- DWAIT (R198): Wait until the completed-descriptor count reaches a value. -/
  | dwait (c : At) (sn : Fin 32)
  /-- END (R180): End of job: act as LAYER then end the job and write the completion. -/
  | end_ (c : At)
  /-- REPLAY (R325): After issued transfers finish, every member restores its checkpoint and re-executes the layer. -/
  | replay (leader : Fin 8)
  /-- HALT (R135): Debug command HALT from the owner port stops the gang with HOST_HALT. -/
  | halt (p : Port) (core : Fin 8)
  /-- RESUME (R125): Debug command RESUME continues a gang after a debug halt with the halted bundle. -/
  | resume (p : Port) (core : Fin 8)
  /-- TRAIL_DROP (R139): A stream-mode Trail record that cannot be written is dropped and counted, and a DROP record follows when space returns. -/
  | trailDrop (core : Fin 8)
  /-- DMA_BATCH_FETCH (R193): The DMA engine fetches a batch of up to 16 descriptors through the load port. -/
  | dmaBatchFetch (c : At)
  /-- DMA_COPY (R195): A COPY descriptor moves bytes in one, two or three dimensions. -/
  | dmaCopy (c : DmaAt) (k : Nat)
  /-- DMA_GATHER (R196): A GATHER descriptor copies elements selected by an index table. -/
  | dmaGather (c : DmaAt) (k : Nat)
  /-- DMA_FEED (R197): A FEED descriptor appends bytes to a lane of the feed queue, waiting for room. -/
  | dmaFeed (c : DmaAt) (k : Nat)
  /-- DMA_NOP (R194): A NOP descriptor moves nothing and completes in order. -/
  | dmaNop (c : DmaAt)
  /-- DMA_DESC_COMPLETE (R198): A descriptor's writes are visible and earlier ones complete, so the completed count rises and its flag is set. -/
  | dmaDescComplete (c : At)
  /-- BUCKET_REFILL (R203): At each TCLK edge every regulator bucket level rises by RATE up to its burst. -/
  | bucketRefill
  /-- REGULATED_REQUEST (R203): A held metered LPDDR6 request issues once both its core and context buckets allow it. -/
  | regulatedRequest (core : Fin 8) (cycles : Nat)
  /-- BWR_BUCKET_WRITE (R205): A write of a core or context bucket RATE or BURST, accepted only from SEM0 and within range. -/
  | bwrBucketWrite (p : Port) (core : Option (Fin 8)) (burst : Bool) (v : Word)
  /-- SCRUB (R191): The memory controller scrubs each fitted unit once per 24 hours, writing corrected data back. -/
  | scrub (fixed : List Addr)
  /-- BAR2_ACCESS (R446): A host BAR2 read or write reaches device memory through the window, or completes with Unsupported Request. -/
  | bar2Access (p : Port) (off : BitVec 48) (data : Option (List Byte)) (len : BitVec 16) (ph : Phys)
  /-- BAR0_BAD_ACCESS (R443): A BAR0 access outside the doorbells that is not one aligned 4-byte access is handled as Unsupported Request. -/
  | bar0BadAccess (p : Port)
  /-- REGISTER_WRITE (R444): A write to a register with no row of its own, including W1C clears and unassigned offsets. -/
  | registerWrite (p : Port) (off : BitVec 25) (v : Word)
  /-- RC_READ (R450): A read of an RC register returns its value and clears it. -/
  | rcRead (p : Port) (off : BitVec 25)
  /-- PAIR_LO_READ (R447): A read of the _LO half of an RO or RC pair returns bits 31 to 0 and latches the upper half for the port. -/
  | pairLoRead (p : Port) (off : BitVec 25)
  /-- PAIR_LO_WRITE (R448): A write of the _LO half of an RW or WO pair goes to the port's pending copy and marks it fresh. -/
  | pairLoWrite (p : Port) (off : BitVec 25) (v : Word)
  /-- PAIR_HI_WRITE (R448): A write of the _HI half makes both halves of an RW or WO pair take effect together. -/
  | pairHiWrite (p : Port) (off : BitVec 25) (v : Word)
  /-- FRAME_START (R234): A frame-start packet of exposure 0 is stamped, FRAME advances and the head parameter set is examined. -/
  | frameStart (p : Fin 24) (vc : Fin 16) (fn : BitVec 16) (corr : Bool)
  /-- FRAME_END (R235): A frame-end packet closes its exposure, filling short exposures. -/
  | frameEnd (p : Fin 24) (vc : Fin 16) (corr : Bool)
  /-- LINE_PACKET (R235): A long packet line is counted, padded or cut, written raw and passed to the pipe. -/
  | linePacket (p : Fin 24) (vc : Fin 16) (dt : Fin 64) (wire : List Byte) (crc corr full : Bool)
  /-- UNMATCHED_PACKET (R230): A packet that no enabled stream claims, or of an unsupported type, is discarded and counted. -/
  | unmatchedPacket (p : Fin 24) (vc : Fin 16) (dt : Fin 64) (corr : Bool)
  /-- HEADER_ERROR (R236): A packet header with an uncorrectable error is discarded with its packet and the receiver resynchronises. -/
  | headerError (p : Fin 24)
  /-- DESKEW (R228): The receiver performs D-PHY deskew when the sensor sends the deskew sequence. -/
  | deskew (i : Fin 12)
  /-- FRAME_COMPLETE (R244): A processed frame's last line and statistics record are visible and its buffer flag is set. -/
  | frameComplete (n : Fin 32)
  /-- FRAME_LATE (R238): A stream's frame deadline passes without a frame start, raising FRAME_LATE and moving the deadline. -/
  | frameLate (n : Fin 32)
  /-- SENSOR_WRITE_BATCH (R250): WR_DELAY after an issue frame's start, a parameter set's exposure or gain writes go out on the sensor bus. -/
  | sensorWriteBatch (n : Fin 32)
  /-- ISP_PARAM_FETCH (R251): During frame T−1 the ISP parameter block of an accepted set is fetched for latching at frame T. -/
  | ispParamFetch (n : Fin 32)
  /-- SCB_XFER (R250): A write of CAM_SCBj_XFER starts a host sensor-bus transfer when no released batch waits. -/
  | scbXfer (p : Port) (j : Fin 12) (v : Word)
  /-- SCB_XFER_DONE (R250): A host sensor-bus transfer completes, clearing BUSY and recording NACK and read data. -/
  | scbXferDone (j : Fin 12) (nack : Bool) (v : Word)
  /-- IBI (R253): An I3C in-band interrupt is acknowledged, discarded and counted. -/
  | ibi (j : Fin 12)
  /-- MEMORY_JOB (R246): An idle pipe finds a new memory-job entry and processes a raw frame from memory. -/
  | memoryJob (m : Fin 4)
  /-- MEMORY_JOB_DONE (R246): A memory job ends, writing its status last and setting its flag. -/
  | memoryJobDone (m : Fin 4)
  /-- ACCESS_UNIT (R266): A decode context takes its head access-unit entry, decodes or discards it and writes its status. -/
  | accessUnit (n : Fin 64) (au : Option AuPic)
  /-- PICTURE_OUTPUT (R266): A held picture is output in display order into a free buffer with its record and flag. -/
  | pictureOutput (n : Fin 64)
  /-- ENCODE_JOB (R271): The encoder codes one job's picture into the bitstream ring, waiting for room, then writes status and flag. -/
  | encodeJob (n : Fin 16) (coded : List Byte)
  /-- SAMPLE (R277): The TAU takes a batch stream's head sample entry and fills its slot. -/
  | sample (n : Fin 64)
  /-- WAIT_EXPIRED (R277): A sample's flag wait exceeds WAIT_US and the slot ends WAIT_EXPIRED. -/
  | waitExpired (n : Fin 64)
  /-- BATCH_EMIT (R278): A batch is emitted after its last slot or a FLUSH entry, padding empty slots and setting its flag. -/
  | batchEmit (n : Fin 64)
  /-- BATCH_TIMEOUT (R278): TIMEOUT_US passes on a batch's timer and the batch is emitted. -/
  | batchTimeout (n : Fin 64)
  /-- SEM_READ (R286): A read of SEMn acquires it if free and reports MINE and OTHER. -/
  | semRead (p : Port) (n : Fin 64) (both : Bool)
  /-- SEM_RELEASE (R286): The holder writes 0 to SEMn to release it. -/
  | semRelease (p : Port) (n : Fin 64) (v : Word)
  /-- DOORBELL (R296): A 64-bit doorbell write updates a queue's SQ_TAIL and CQ_HEAD, or is refused with DB_ERROR. -/
  | doorbell (p : Port) (q : Fin 65536) (v : Dword) (whole : Bool)
  /-- ENTRY_CONSUME (R295): The QS8 reads and checks a submission entry, completing malformed ones with ERR_BAD_ENTRY. -/
  | entryConsume (q : Fin 65536)
  /-- ENTRY_START (R299): A queue head whose flags, state, ring slot and gang conditions hold is started by firmware. -/
  | entryStart (q : Fin 65536) (leader : Fin 8)
  /-- ENTRY_TIMEOUT (R301): TIMEOUT_US expires and the entry completes ERR_TIMEOUT, stopping its gang if running. -/
  | entryTimeout (q : Fin 65536) (count : Word)
  /-- COMPLETION_DELIVER (R303): A completion sets the declared flags, writes the completion record and counts toward the MSI-X message. -/
  | completionDeliver (q : Fin 65536)
  /-- MSIX_TIMER (R285): IC_USEC µs after the first unsignalled completion, the queue sends its MSI-X vector. -/
  | msixTimer (q : Fin 65536)
  /-- DEADLOCK (R305): A deadlocked set of heads is found; each completes ERR_DEADLOCK and its queue stops. -/
  | deadlock (qs : List (Fin 65536))
  /-- QM_FLAG_SET (R304): A host write sets an event flag with release semantics. -/
  | qmFlagSet (p : Port) (v : FlagSet)
  /-- QM_FLAG_CLR (R304): A host write clears an event flag. -/
  | qmFlagClr (p : Port) (v : Word)
  /-- CREATE_QUEUE (R306): Admin command creating an ACTIVE general queue with its rings and vector. -/
  | createQueue (p : Port)
  /-- DELETE_QUEUE (R306): Admin command deleting a queue with no entry pending. -/
  | deleteQueue (p : Port)
  /-- STOP_QUEUE (R306): Admin command moving a queue from ACTIVE to STOPPED. -/
  | stopQueue (p : Port)
  /-- RESUME_QUEUE (R306): Admin command moving a STOPPED or PARKED queue to ACTIVE. -/
  | resumeQueue (p : Port)
  /-- CANCEL (R306): Admin command completing every entry below UNTIL with ERR_CANCELLED, stopping running ones. -/
  | cancel (p : Port)
  /-- CREATE_CONTEXT (R290): Admin command checking a Basket and binding table and making the context resident. -/
  | createContext (p : Port)
  /-- DESTROY_CONTEXT (R306): Admin command removing a context with no entry naming it pending. -/
  | destroyContext (p : Port)
  /-- GIVE (R288): Admin command making the other port owner of an object. -/
  | give (p : Port)
  /-- ADOPT (R312): Admin command taking ownership of a lost port's object or of all of them. -/
  | adopt (p : Port)
  /-- PREPARE_OFF (R432): Admin command that stops all work, cancels entries, saves K and the health image and hands over to the rest-stop test. -/
  | prepareOff (p : Port) (flashOk : Bool)
  /-- REST_STOP_TEST (R432): After PREPARE_OFF completes, the STC zeroises keys, runs memory and logic BIST and writes the clean health record. -/
  | restStopTest (bad : List (Fin 48)) (hamper repeated : Bool) (void : List (Fin 4)) (writeOk : Bool)
  /-- UNFENCE (R333): Admin command returning a FENCED unit to OBSERVED, at once or when its core is idle. -/
  | unfence (p : Port)
  /-- UNFENCE_TAKES_EFFECT (R333): A pending UNFENCE change takes effect once no job runs on a gang containing the core. -/
  | unfenceTakesEffect (u : Fin 48)
  /-- FW_STAGE (R416): Admin command checking a Flask image and copying it as the staged image. -/
  | fwStage (p : Port) (ph : Phys)
  /-- FW_ACTIVATE (R417): Admin command starting or deferring the live handover to the staged image. -/
  | fwActivate (p : Port)
  /-- HANDOVER_BEGIN (R417): After power and thermal conditions have been clear for 1 s, handover begins and gangs hold at their next LAYER. -/
  | handoverBegin
  /-- HANDOVER_SWITCH (R417): When every gang is held, the staged image starts and the gangs resume. -/
  | handoverSwitch (vpp : Bool)
  /-- ACT_ABORTED (R417): Not every gang is held within 100 ms, so the handover is abandoned. -/
  | actAborted
  /-- FW_CANCEL (R418): Admin command discarding the staged image and any pending activation. -/
  | fwCancel (p : Port)
  /-- RESTORE_FACTORY (R423): Admin command erasing both user calibration copies and making the factory layer pending. -/
  | restoreFactory (p : Port)
  /-- ATTEST (R420): Admin command writing a signed attestation report with the given nonce. -/
  | attest (p : Port) (bad : List Nat) (corr : List (Nat × Nat × Nat)) (rnd : BitVec 256)
  /-- LOAD_PATTERN_PACK (R342): Admin command verifying and adopting a signed field-test pattern pack. -/
  | loadPatternPack (p : Port) (ph : Phys)
  /-- ATTACH (R308): HPx_ATTACH command ATTACH attaches a driver when firmware runs and the ABI matches. -/
  | attach (p : Port) (abi : BitVec 16)
  /-- REATTACH (R311): HPx_ATTACH command REATTACH reattaches a lost port and resumes its admin queue. -/
  | reattach (p : Port) (abi : BitVec 16)
  /-- HEARTBEAT (R309): A write of HPx_HEARTBEAT records a driver beat. -/
  | heartbeat (p : Port)
  /-- HEARTBEAT_TIMEOUT (R309): No heartbeat arrives for three intervals and the port is marked LOST. -/
  | heartbeatTimeout (p : Port)
  /-- HOST_LINK_DOWN (R309): A host port's link goes down or is hot-reset, marking the port LOST. -/
  | hostLinkDown (p : Port)
  /-- HOST_LINK_UP (R281): A host port's link trains and the port becomes LINK_UP. -/
  | hostLinkUp (p : Port)
  /-- HOST_RESET (R427): The key written to HPx_RESET by the holder of SEM0 resets the device. -/
  | hostReset (p : Port) (v : Word)
  /-- CONFIRMATION_TEST (R341): When the core of a newly OBSERVED unit is idle, firmware runs a confirmation test that may fence it. -/
  | confirmationTest (u : Fin 48) (r : TestEnd) (temp : Int)
  /-- FIELD_TEST (R340): On its hourly or 10-second schedule firmware tests a unit at reduced voltage and raised frequency and records the result. -/
  | fieldTest (u : Fin 48) (r : TestEnd) (temp : Int)
  /-- FIELD_OVERDUE (R340): A HEALTHY unit goes 24 hours untested and FIELD_OVERDUE is set. -/
  | fieldOverdue (u : Fin 48)
  /-- OBSERVED_TIMEOUT (R323): An OBSERVED unit reaches 72 hours without an event and returns to HEALTHY. -/
  | observedTimeout (u : Fin 48)
  /-- HEALTH_RECORD_WRITE (R324): Firmware writes the unit states into the flash health record after a fence change, clearing RECORD_DIRTY. -/
  | healthRecordWrite
  /-- HEALTH_AGE_UPDATE (R435): After every 24 hours of powered time firmware writes a new health record to update AGE_S. -/
  | healthAgeUpdate
  /-- TELEMETRY_SAMPLE (R347): Every 100 µs the PM reads the rails, forms M, updates K and allocates the domain budgets. -/
  | telemetrySample (readings : List (Option (Nat × Nat)))
  /-- ESTIMATE (R350): Every 1 µs the PM forms the activity estimate E and the enforced power P. -/
  | estimate (comp : List Nat) (mem links sense : Nat)
  /-- PMBUS_POLL (R348): Every 10 ms the PM reads each rail's STATUS_WORD and clears faults. -/
  | pmbusPoll (faults : BitVec 8)
  /-- TELEMETRY_SAFE_STEP (R352): After 1 s of continuous telemetry disagreement the PM demands step 6. -/
  | telemetrySafeStep
  /-- TELEM_ACK (R352): A SEM0 write of ACK to PM_TELEM_ACK releases the telemetry safe step. -/
  | telemAck (p : Port) (v : Word)
  /-- STEP_RAISE (R346): Once the VDD_CORE regulator reports the new set point, ACLK moves one step faster. -/
  | stepRaise
  /-- BOOST_STEP (R358): Every 100 µs with headroom, MANAGED mode with boost demands one faster step. -/
  | boostStep
  /-- DROOP_TRIP (R361): A droop detector trips and every ACLK pulse is stretched. -/
  | droopTrip (det : Fin 16)
  /-- DROOP_PERSISTENCE (R361): An interval with more than 10% stretched time makes the PM demand SUST_STEP + 1 for 10 ms. -/
  | droopPersistence
  /-- SUPPLY_WARN (R362): A supply crosses its WARN level; the PM demands step 8, logs the time and drives PWR_WARN_N low. -/
  | supplyWarn (rail : Fin 4)
  /-- SUPPLY_RECOVER (R362): The supply returns above 95% of its set point and PWR_WARN_N returns high, starting the 1 ms hold. -/
  | supplyRecover (rail : Fin 4)
  /-- WARN_RAMP (R362): After the 1 ms hold the PM lowers its step demand one step per 100 µs. -/
  | warnRamp
  /-- SUPPLY_RESET (R362): A supply crosses its RESET level; the PM logs the rail and time and the device resets. -/
  | supplyReset (rail : Fin 4)
  /-- THERMAL_SAMPLE (R363): Every 10 µs the twenty sensors are sampled and thermal levels are entered or left. -/
  | thermalSample (readings : List Int)
  /-- THERMAL_CEILING_STEP (R364): Every 10 ms at thermal level 1 the step ceiling moves one step slower or faster. -/
  | thermalCeilingStep
  /-- THERMAL_TRIP (R365): A sensor comparator trips at 120 °C; THERMTRIP_N goes low and every clock outside the always-on domain stops. -/
  | thermalTrip
  /-- IDLE_RETAIN_ENTER (R366): After the entry conditions hold for DELAY the device enters IDLE_RETAIN. -/
  | idleRetainEnter
  /-- IDLE_WAKE (R366): A doorbell, flag set, commit, fabric packet or event input wakes the device from IDLE_RETAIN. -/
  | idleWake
  /-- DEEP (R366): A SEM0 DEEP write enters DEEP_IDLE if its conditions hold, otherwise sets WR_REJECT. -/
  | deep (p : Port)
  /-- WAKE (R366): A WAKE write, doorbell, flag set or fabric packet leaves DEEP_IDLE. -/
  | wake (p : Port)
  /-- SLEW (R370): CPS_ADJ command SLEW loads the offset into the slew remainder. -/
  | slew (p : Port)
  /-- STEP (R370): CPS_ADJ command STEP adds the offset to TIME at the next TCLK edge and shifts FSYNC schedules. -/
  | step (p : Port)
  /-- EVENT_EDGE (R378): A qualified edge on an event input pushes a stamp into that input's FIFO. -/
  | eventEdge (e : Fin 8) (sub : Fin 8) (fall : Bool)
  /-- STAMP_POP (R379): A read of CPS_EVTe_STAMP_LO pops the oldest stamp and latches its upper word and SUB. -/
  | stampPop (p : Port) (e : Fin 9)
  /-- REF_PPS_EDGE (R372): A REF_PPS_IN edge is stamped and steers RATE or steps TIME under the discipline loop. -/
  | refPpsEdge (sub : Fin 8)
  /-- REF_LOST (R373): No PPS edge is accepted within 1.5 s and Compass enters HOLDOVER. -/
  | refLost
  /-- FSYNC_PULSE_START (R375): TIME reaches START + k × PERIOD and the FSYNC output becomes active. -/
  | fsyncPulseStart (n : Fin 24)
  /-- FSYNC_PULSE_END (R375): TIME reaches the pulse start plus WIDTH and the FSYNC output becomes inactive. -/
  | fsyncPulseEnd (n : Fin 24)
  /-- PPS_OUT_PULSE (R377): TIME passes a whole second and PPS_OUT becomes active for WIDTH_MS. -/
  | ppsOutPulse
  /-- SYNC_OUT_MESSAGE (R377): 500 µs after a PPS_OUT edge the 16-byte time message is sent on SYNC_OUT. -/
  | syncOutMessage
  /-- FAB_PORT_UP (R384): A fabric port completes training and goes UP. -/
  | fabPortUp (p : Fin 4) (width : Fin 3) (gen : Bool)
  /-- FAB_PORT_DOWN (R386): No valid packet arrives for 10 µs, or a packet fails 8 resends, and the port goes DOWN. -/
  | fabPortDown (p : Fin 4)
  /-- LINK_KEEPALIVE (R386): A port that has sent nothing for 1 µs sends a LINK packet. -/
  | linkKeepalive (p : Fin 4)
  /-- LINK (R385): A received LINK packet carries LACK and returned credits. -/
  | link (p : Fin 4) (k : FPkt)
  /-- LINK_NAK (R385): A received LINK_NAK makes the sender resend from LACK + 1. -/
  | linkNak (p : Fin 4) (k : FPkt)
  /-- WRITE (R400): A received WRITE packet is forwarded or, at its target, checked against windows and sequence and applied. -/
  | write (p : Fin 4) (k : FPkt)
  /-- FLAG (R400): A received FLAG packet is forwarded or, at its target, sets a permitted host event flag in order. -/
  | flag (p : Fin 4) (k : FPkt)
  /-- ACK (R398): A received ACK covers sent packets of a ring up to ESEQ. -/
  | ack (p : Fin 4) (k : FPkt)
  /-- NAK (R399): A received NAK reports refusal, out-of-order or unreachability to the source ring. -/
  | nak (p : Fin 4) (k : FPkt)
  /-- HELLO (R391): A received HELLO updates the neighbour, root election and beacon. -/
  | hello (p : Fin 4) (k : FPkt)
  /-- HELLO_SEND (R390): Every 100 µs each UP port sends a HELLO. -/
  | helloSend
  /-- BEACON (R391): Every 100 µs the root increments its BEACON. -/
  | beacon
  /-- ROOT_TIMEOUT (R391): BEACON does not increase for 1 ms and the device forgets that root. -/
  | rootTimeout
  /-- TIME_SYNC (R406): A TIME_SYNC from the parent port steps or steers the follower's Compass. -/
  | timeSync (p : Fin 4) (k : FPkt) (sub : Fin 8)
  /-- TIME_SYNC_SEND (R404): Every 1 ms the root or follower sends TIME_SYNC on its child ports. -/
  | timeSyncSend (sub : Fin 8)
  /-- TIME_REQ (R405): A received TIME_REQ is answered with TIME_RSP carrying arrival and departure times. -/
  | timeReq (p : Fin 4) (k : FPkt) (subIn subOut : Fin 8)
  /-- TIME_RSP (R405): A received TIME_RSP completes a link-delay measurement. -/
  | timeRsp (p : Fin 4) (k : FPkt) (sub : Fin 8)
  /-- DELAY_MEASURE (R405): Every 10 ms each port sends TIME_REQ to measure its link delay. -/
  | delayMeasure (p : Fin 4) (sub : Fin 8)
  /-- PRUNED (R403): A received PRUNED packet marks the device pruned from a multicast group. -/
  | pruned (p : Fin 4) (k : FPkt)
  /-- JOIN (R403): A received JOIN restores a pruned multicast branch. -/
  | join (p : Fin 4) (k : FPkt)
  /-- PRUNE (R402): A multicast packet waits T_US for a full branch under PRUNE and the branch is pruned. -/
  | prune (group : Fin 256) (port : Fin 4) (told : List (Fin 4096))
  /-- MCAST_JOIN (R403): A write of FAB_MCAST_JOIN sends JOIN for a group. -/
  | mcastJoin (p : Port) (group : Fin 256)
  /-- SEND_WRITE (R397): A send-ring WRITE descriptor is cut into packets and sent. -/
  | sendWrite (r : Fin 16)
  /-- SEND_FLAG (R397): A send-ring FLAG descriptor sends a remote flag set. -/
  | sendFlag (r : Fin 16)
  /-- SEND_WRITE_FLAG (R397): A send-ring WRITE_FLAG descriptor sends its writes then its flag. -/
  | sendWriteFlag (r : Fin 16)
  /-- SEND_COMPLETE (R398): A send descriptor completes in ring order, writing STATUS and setting LFLAG. -/
  | sendComplete (r : Fin 16)
  /-- RESEND_TIMEOUT (R400): ACK_US passes without progress and the source resends from its oldest unacknowledged packet. -/
  | resendTimeout (r : Fin 16)
  /-- FW_LOAD (R413): A FW_LOAD write with GO starts verification of the image in the load area. -/
  | fwLoad (p : Port) (v : Word)
  /-- FW_VERIFY_DONE (R413): Image verification ends; on success the image is copied and the control cores start, otherwise WAIT_IMAGE returns. -/
  | fwVerifyDone (ph : Phys) (vpp : Bool)
  /-- FW_WATCHDOG (R414): A control-core watchdog expires and the firmware restarts. -/
  | fwWatchdog (core : Fin 6) (same : Bool)
  /-- QM_CHECK (R414): The QM refuses a wrong firmware action and the firmware restarts. -/
  | qmCheck (same : Bool)
  /-- STORE (R423): FW_CAL_CMD STORE writes a checked user calibration layer as the pending copy. -/
  | store (p : Port) (bad : List Nat) (corr : List (Nat × Nat × Nat)) (flashOk : Bool)
  /-- READ (R423): FW_CAL_CMD READ copies the layer in force to FW_CAL_ADDR. -/
  | read (p : Port)
  /-- CHALLENGE (R421): SEC_DBG_CMD CHALLENGE fills the challenge registers with 32 random bytes. -/
  | challenge (src : Option Port)
  /-- VERIFY (R421): SEC_DBG_CMD VERIFY checks the debug response and enables internal debug after zeroising keys. -/
  | verify (src : Option Port) (slot : Fin 4) (ph : Phys) (seed : BitVec 256)
  /-- CHALLENGE_EXPIRED (R421): A debug challenge expires 60 s after it is issued. -/
  | challengeExpired
  /-- RNG_READ (R425): A read of SEC_RNG_DATA returns 32 random bits and takes new ones. -/
  | rngRead (p : Port)
  /-- COLD_RESET (R427): PORST_N held low resets the device. -/
  | coldReset (aon : Bool)
  /-- WARM_RESET (R427): RESET_N held low resets the device. -/
  | warmReset
  /-- BOOT (R429): After reset release the boot ROM locks the PLL, reads flash, releases links, trains LPDDR6 and runs the self-test on a full start. -/
  | boot (b : BootIn)
  /-- REFCLK_LOSS (R470): REFCLK stops, every clock stops and the device state is undefined until PORST_N. -/
  | refclkLoss
  /-- VALIDATION_DONE (R27): CHECK or APPLY validation ends within 50 µs, CHECKING clears, and an APPLY is accepted as pending or fails, with SEM0 tested again at that moment. -/
  | validationDone (p : Port)
  /-- START_OF_TRANSMISSION (R236): After an uncorrectable header the receiver regains sync at the next start of transmission on the camera lanes, and SYNC_A or SYNC_B is set again. -/
  | startOfTransmission (p : Fin 24)
  /-- SENSOR_BATCH_END (R250): A released sensor write batch finishes on its bus, which may set SENSOR_LATE and lets a waiting host transfer run. -/
  | sensorBatchEnd (j : Fin 12) (skipped : List Nat)
  /-- DOUBLED_REFRESH (R191): An LPDDR6 device starts or stops requiring doubled refresh, which changes REFRESH_X2 and the sustained bandwidth. -/
  | doubledRefresh (on : Bool)
  /-- ECC_WINDOW_END (R322): A 24-hour window counted from reset ends, and the corrected-error counts that decide health events restart. -/
  | eccWindowEnd
  /-- DROOP_DETECTOR_CLEAR (R361): The local VDD_CORE returns above 96% of the set point, the detector releases, and stretching ends after at least 32 pulses. -/
  | droopDetectorClear (det : Fin 16)
  /-- WAKE_COMPLETE (R366): The 20 µs or 2 ms wake from an idle state completes, the device becomes ACTIVE, and entries whose doorbells arrived meanwhile may start. -/
  | wakeComplete
  /-- FIRMWARE_READY (R413): Firmware started after verification or after a restart becomes ready, FW_STATUS reads RUNNING, and the ALIVE enable is set again. -/
  | firmwareReady
  /-- FAB_PORT_TRAIN (R384): 1 ms after a loss, an enabled fabric port leaves DOWN and begins training. -/
  | fabPortTrain (p : Fin 4)
  /-- PACKET_CRC_ERROR (R385): A fabric packet arrives with a CRC error or an unassigned type; it is counted, dropped or answered with LINK_NAK. -/
  | packetCrcError (p : Fin 4) (k : Option FPkt)
  deriving DecidableEq, Repr

end Sys2Proof
end

