-- ==== Sys2Proof/Decode.lean ====
section
/-! DEFINITION. The command that a word of the table spells. No row of the table has bits: the block takes its commands from
outside as they are, and no word spells one. -/

namespace Sys2Proof

/-- The command a word spells: none, for no row of the table gives bits. -/
def decodeTableWord (_nbits _w : Nat) : Option Instr := none

end Sys2Proof
end

