-- ==== Sys2Proof/Config.lean ====
section
/-! DEFINITION. What one part or one implementation fixes, and the free values: constants without a body, of which nothing
is known. A free value is applied to the state's counter of free values and to what it depends on. -/

namespace Sys2Proof.Config

/-- A free bit: applied to the counter of free values and to a number that tells the uses of one step apart. -/
opaque freeBit : Nat → Nat → Bool
/-- A free byte. -/
opaque freeByte : Nat → Nat → BitVec 8
/-- A free 32-bit word. -/
opaque freeWord : Nat → Nat → BitVec 32
/-- A free 64-bit word. -/
opaque freeDword : Nat → Nat → BitVec 64

/-- The count of commands from which an agent sees a store that another made at a given count, in one aligned 8-byte word:
of that count, the agent and the word (R21, R24). -/
opaque seenAt : Nat → Nat → Nat → Nat
/-- A byte of memory whose contents have been lost, until it is written (R337, R366): of the count of commands at the loss
and the address. -/
opaque lostByte : Nat → Nat → BitVec 8

/-- The undefined bits of an accumulator entry after reset or DEEP_IDLE (R53): of the reset count, the core, the array
and the entry. -/
opaque accBits : Nat → Nat → BitVec 2048
/-- Whether such an entry's undefined tag is FP32 (R53). -/
opaque accTagFp : Nat → Nat → Bool
/-- The undefined contents of a register-set row (R48), of its side row and of a row read in a format it was not written in. -/
opaque cellBits : Nat → Nat → BitVec 512
opaque sideBits : Nat → Nat → BitVec 1024

/-- Identity and manufacture of the part (Tables 1.8, 15.7, 15.8): fixed per part. -/
opaque uid : BitVec 64
/-- Stepping B0, which both ordering codes name (R473). -/
def stepping : BitVec 8 := 0x10
/-- Version of the boot ROM (FW_ROM_VERSION). -/
opaque romVersion : BitVec 32

/-- The VDD_CORE set point of a step in mV, from the factory calibration layer (R346, R422). -/
opaque vf : Nat → Nat
/-- The largest trim in mV of a step in the factory layer, at most 25 (R422). -/
opaque margin : Nat → Nat
/-- Leakage in 0.01 W at a VDD_CORE set point in mV and a TJ in 1/8 °C, from the factory coefficients (R350, R358). -/
opaque leak : Nat → Int → Nat
/-- Bytes per µs of LPDDR6 traffic that a power in 1/4,096 of 0.01 W pays for (R355). -/
opaque memRate : Int → Nat
/-- The estimated power of a test of a unit at a step, in units of 40.96 W / 1,048,576 (R340). -/
opaque testPower : Nat → Nat → BitVec 20
/-- Fuses of the anti-rollback counter that the part comes with (R412); key slots: revoked, usage bits, key digest (R411). -/
opaque otpSvn : Nat
opaque slotRevoked : Nat → Bool
opaque slotUse : Nat → BitVec 3
opaque slotDigest : Nat → BitVec 256

/-- The identity seed in OTP (R419). -/
opaque otpSeed : List (BitVec 8)
/-- ML-DSA-44, a standard that the spec names (R410, R419): the public key of the key pair generated from a 32-byte seed, the
signature with that pair's private key of a message (and 32 bytes for the signer's own randomness), and whether a signature
verifies. -/
opaque mldsaPublic : BitVec 256 → List (BitVec 8)
opaque mldsaSign : BitVec 256 → List (BitVec 8) → BitVec 256 → List (BitVec 8)
opaque mldsaVerify (key msg sig : List (BitVec 8)) : Bool

/-- Version and digest of the pattern pack that a Flask image carries, of the image's digest (R342). -/
opaque flaskPackVersion : BitVec 256 → BitVec 32
opaque flaskPackDigest : BitVec 256 → BitVec 256

/-- MIPI CSI-2 packing (an external standard): pixel `i` of a line of a data type, and byte `i` of a line of `width` pixels
whose missing pixels are `fill`. -/
opaque csiPixel (dt : Nat) (line : List (BitVec 8)) (i : Nat) : Nat
opaque csiByte (dt width fill : Nat) (line : List (BitVec 8)) (i : Nat) : BitVec 8

/-- The site of an RGB-IR 4 × 4 pattern (R241): 0 R, 1 G, 2 B, 3 IR. -/
opaque irSite (phase x y : Nat) : Nat
/-- The filter kernels of the image pipes (R240), fixed per stepping: a 20-bit code of the image at a site. -/
opaque ispDefect (thresh : Nat) (list : List (Nat × Nat)) (img : List (List Nat)) (x y : Nat) : BitVec 20
opaque ispDemosaic (cfa ir : Nat) (img : List (List Nat)) (ch x y : Nat) : BitVec 20
opaque ispTnr (strength motion : Nat) (ref : List (BitVec 8)) (img : List (List (Nat × Nat × Nat))) (ch x y : Nat) : BitVec 20
opaque ispSnr (strength : Nat) (img : List (List (Nat × Nat × Nat))) (ch x y : Nat) : BitVec 20
/-- Byte `i` of the temporal reference of an image. -/
opaque ispRef (img : List (List (Nat × Nat × Nat))) (i : Nat) : BitVec 8
/-- Whether a quotient of an image pipe that is not whole is rounded up (R240, R242). -/
opaque ispUp (n : Int) (d : Nat) : Bool
/-- Where between those of four pixels the chroma value of an NV12 output lies (R240, stage 11). -/
opaque ispChroma (v : Bool) (quad : List (Nat × Nat × Nat)) : Nat
/-- A value of the colour matrix that is not a number (R242). -/
opaque ispNan (i : Nat) : Nat

end Sys2Proof.Config
end

