-- ==== Sys2Proof/Machine/Regs.lean ====
section
/-! DEFINITION. The register space (chapter 17): every register of the spec's register tables with its offset, its
instances, its fields, their access codes (R8) and reset values. One row of `regTable` per table row (R452). -/

namespace Sys2Proof.Machine

/-- Access codes of Table 0.4 (R8). -/
inductive Acc where
  | rw | ro | wo | w1c | rc | rws
  deriving DecidableEq, Repr

/-- A field of a register: its lowest bit and its width. -/
structure Fld where
  lo : Nat
  w  : Nat
  deriving DecidableEq, Repr

/-- One row of a register table's field list. -/
structure FieldRow where
  fld   : Fld
  acc   : Acc
  reset : Nat
  deriving DecidableEq, Repr

/-- A register: its offset in the register space, up to two strides with their instance counts, and its fields. -/
structure RegRow where
  off    : Nat
  step   : Nat
  count  : Nat
  step2  : Nat
  count2 : Nat
  fields : List FieldRow
  deriving DecidableEq, Repr

def Reg.GLB_DEVICE_ID : Nat := 0x0
def Reg.GLB_UID_LO : Nat := 0x8
def Reg.GLB_UID_HI : Nat := 0xc
def Reg.GLB_STAGE_ADDR : Nat := 0x100
def Reg.GLB_STAGE_DATA : Nat := 0x104
def Reg.GLB_COMMIT_CMD : Nat := 0x110
def Reg.GLB_COMMIT_STATUS : Nat := 0x114
def Reg.GLB_COMMIT_FAIL_OFFSET : Nat := 0x118
def Reg.GLB_APPLY_TIME_LO : Nat := 0x120
def Reg.GLB_APPLY_TIME_HI : Nat := 0x124
def Reg.GLB_COMMIT_TIMEOUT : Nat := 0x128
def Reg.GLB_APPLIED_TIME_LO : Nat := 0x130
def Reg.GLB_APPLIED_TIME_HI : Nat := 0x134
def Reg.GLB_COMMIT_SEQ : Nat := 0x138
def Reg.GLB_SNAP_CMD : Nat := 0x200
def Reg.GLB_SNAP_STATUS : Nat := 0x204
def Reg.GLB_SNAP_TIME_LO : Nat := 0x208
def Reg.GLB_SNAP_TIME_HI : Nat := 0x20c
def Reg.GLB_SNAP_ADDR : Nat := 0x210
def Reg.GLB_SNAP_DATA : Nat := 0x214
def Reg.GLB_SNAP_SEL : Nat := 0x218
def Reg.CCn_QSTAT_FLAGS (n : Nat) : Nat := 0x800800 + 0x10000 * n
def Reg.CCn_QSTAT_LAYERS (n : Nat) : Nat := 0x800804 + 0x10000 * n
def Reg.CCn_QSTAT_SSE (n : Nat) : Nat := 0x800808 + 0x10000 * n
def Reg.CCn_QSTAT_SSV (n : Nat) : Nat := 0x80080c + 0x10000 * n
def Reg.CCn_QSTAT_COUNT_LO (n : Nat) : Nat := 0x800810 + 0x10000 * n
def Reg.CCn_QSTAT_COUNT_HI (n : Nat) : Nat := 0x800814 + 0x10000 * n
def Reg.CCn_QSTAT_CLIP_LO (n : Nat) : Nat := 0x800818 + 0x10000 * n
def Reg.CCn_QSTAT_CLIP_HI (n : Nat) : Nat := 0x80081c + 0x10000 * n
def Reg.CCn_STATUS (n : Nat) : Nat := 0x800000 + 0x10000 * n
def Reg.CCn_PC (n : Nat) : Nat := 0x800004 + 0x10000 * n
def Reg.CCn_STICKY (n : Nat) : Nat := 0x800008 + 0x10000 * n
def Reg.CCn_HALT_INFO (n : Nat) : Nat := 0x800100 + 0x10000 * n
def Reg.CCn_HALT_PC (n : Nat) : Nat := 0x800104 + 0x10000 * n
def Reg.CCn_HALT_TAG (n : Nat) : Nat := 0x800108 + 0x10000 * n
def Reg.CCn_HALT_AUX_LO (n : Nat) : Nat := 0x80010c + 0x10000 * n
def Reg.CCn_HALT_AUX_HI (n : Nat) : Nat := 0x800110 + 0x10000 * n
def Reg.CCn_HALT_RETIRED_LO (n : Nat) : Nat := 0x800114 + 0x10000 * n
def Reg.CCn_HALT_RETIRED_HI (n : Nat) : Nat := 0x800118 + 0x10000 * n
def Reg.CCn_DBG_CONTEXT (n : Nat) : Nat := 0x800200 + 0x10000 * n
def Reg.CCn_DBG_CMD (n : Nat) : Nat := 0x800204 + 0x10000 * n
def Reg.CCn_DBG_STATUS (n : Nat) : Nat := 0x800208 + 0x10000 * n
def Reg.CCn_BKPTb (n : Nat) (k : Nat) : Nat := 0x800210 + 0x10000 * n + 0x4 * k
def Reg.CCn_BISECT_COUNT_LO (n : Nat) : Nat := 0x800230 + 0x10000 * n
def Reg.CCn_BISECT_COUNT_HI (n : Nat) : Nat := 0x800234 + 0x10000 * n
def Reg.CCn_RETIRED_LO (n : Nat) : Nat := 0x800238 + 0x10000 * n
def Reg.CCn_RETIRED_HI (n : Nat) : Nat := 0x80023c + 0x10000 * n
def Reg.CCn_STALL_LIMIT (n : Nat) : Nat := 0x800240 + 0x10000 * n
def Reg.CCn_TRAIL_CTRL (n : Nat) : Nat := 0x800300 + 0x10000 * n
def Reg.CCn_TRAIL_BASE_LO (n : Nat) : Nat := 0x800304 + 0x10000 * n
def Reg.CCn_TRAIL_BASE_HI (n : Nat) : Nat := 0x800308 + 0x10000 * n
def Reg.CCn_TRAIL_SIZE (n : Nat) : Nat := 0x80030c + 0x10000 * n
def Reg.CCn_TRAIL_WPTR (n : Nat) : Nat := 0x800310 + 0x10000 * n
def Reg.CCn_TRAIL_RPTR (n : Nat) : Nat := 0x800314 + 0x10000 * n
def Reg.CCn_TRAIL_DROPS (n : Nat) : Nat := 0x800318 + 0x10000 * n
def Reg.CCn_TRAIL_RADDR (n : Nat) : Nat := 0x80031c + 0x10000 * n
def Reg.CCn_TRAIL_RDATA (n : Nat) : Nat := 0x800320 + 0x10000 * n
def Reg.CCn_DE_STATUS (n : Nat) : Nat := 0x800400 + 0x10000 * n
def Reg.CCn_DE_DONE (n : Nat) : Nat := 0x800404 + 0x10000 * n
def Reg.CCn_DE_FAULT_INFO (n : Nat) : Nat := 0x800408 + 0x10000 * n
def Reg.CCn_DE_FAULT_DESC (n : Nat) : Nat := 0x80040c + 0x10000 * n
def Reg.CCn_DE_FAULT_ADDR_LO (n : Nat) : Nat := 0x800410 + 0x10000 * n
def Reg.CCn_DE_FAULT_ADDR_HI (n : Nat) : Nat := 0x800414 + 0x10000 * n
def Reg.CCn_DE_FAULT_COOKIE (n : Nat) : Nat := 0x800418 + 0x10000 * n
def Reg.CCn_BWR_RATE (n : Nat) : Nat := 0x800440 + 0x10000 * n
def Reg.CCn_BWR_BURST (n : Nat) : Nat := 0x800444 + 0x10000 * n
def Reg.CCn_BWR_LEVEL (n : Nat) : Nat := 0x800448 + 0x10000 * n
def Reg.CCn_BWR_HELD (n : Nat) : Nat := 0x80044c + 0x10000 * n
def Reg.MC_CFG : Nat := 0x700000
def Reg.MC_STATUS : Nat := 0x700004
def Reg.MC_ARB : Nat := 0x700010
def Reg.MC_RD_BYTES_LO : Nat := 0x700020
def Reg.MC_RD_BYTES_HI : Nat := 0x700024
def Reg.MC_WR_BYTES_LO : Nat := 0x700028
def Reg.MC_WR_BYTES_HI : Nat := 0x70002c
def Reg.MC_BWR_CTX_SEL : Nat := 0x700100
def Reg.MC_BWR_CTX_RATE : Nat := 0x700104
def Reg.MC_BWR_CTX_BURST : Nat := 0x700108
def Reg.MC_BWR_CTX_LEVEL : Nat := 0x70010c
def Reg.MC_BWR_STATUS : Nat := 0x700110
def Reg.CAM_CSIi_CFG (n : Nat) : Nat := 0x200000 + 0x40 * n
def Reg.CAM_CSIi_STATUS (n : Nat) : Nat := 0x200004 + 0x40 * n
def Reg.CAM_CSIi_HDR_CORR (n : Nat) : Nat := 0x200008 + 0x40 * n
def Reg.CAM_CSIi_HDR_DROP (n : Nat) : Nat := 0x20000c + 0x40 * n
def Reg.CAM_CSIi_CRC_ERR (n : Nat) : Nat := 0x200010 + 0x40 * n
def Reg.CAM_CSIi_UNMATCHED (n : Nat) : Nat := 0x200014 + 0x40 * n
def Reg.CAM_SCBj_CFG (n : Nat) : Nat := 0x200400 + 0x20 * n
def Reg.CAM_SCBj_XFER (n : Nat) : Nat := 0x200404 + 0x20 * n
def Reg.CAM_SCBj_XDATA (n : Nat) : Nat := 0x200408 + 0x20 * n
def Reg.CAM_SCBj_XSTATUS (n : Nat) : Nat := 0x20040c + 0x20 * n
def Reg.CAM_SCBj_NACKS (n : Nat) : Nat := 0x200410 + 0x20 * n
def Reg.CAM_SCBj_IBI (n : Nat) : Nat := 0x200414 + 0x20 * n
def Reg.CAM_STRn_CTRL (n : Nat) : Nat := 0x201000 + 0x40 * n
def Reg.CAM_STRn_DESC_LO (n : Nat) : Nat := 0x201004 + 0x40 * n
def Reg.CAM_STRn_DESC_HI (n : Nat) : Nat := 0x201008 + 0x40 * n
def Reg.CAM_STRn_STATUS (n : Nat) : Nat := 0x20100c + 0x40 * n
def Reg.CAM_STRn_FRAME (n : Nat) : Nat := 0x201010 + 0x40 * n
def Reg.CAM_STRn_LAST_FLAGS (n : Nat) : Nat := 0x201014 + 0x40 * n
def Reg.CAM_STRn_PS_CONS (n : Nat) : Nat := 0x201018 + 0x40 * n
def Reg.CAM_STRn_PS_IN_FORCE (n : Nat) : Nat := 0x20101c + 0x40 * n
def Reg.CAM_STRn_DROPPED (n : Nat) : Nat := 0x201020 + 0x40 * n
def Reg.CAM_STRn_LATE (n : Nat) : Nat := 0x201024 + 0x40 * n
def Reg.CAM_STRn_ORPHAN (n : Nat) : Nat := 0x201028 + 0x40 * n
def Reg.CAM_LATE_EVENT : Nat := 0x202000
def Reg.CAM_ERR_EVENT : Nat := 0x202004
def Reg.ISPm_STATUS (n : Nat) : Nat := 0x300000 + 0x100 * n
def Reg.ISPm_PIXELS_LO (n : Nat) : Nat := 0x300004 + 0x100 * n
def Reg.ISPm_PIXELS_HI (n : Nat) : Nat := 0x300008 + 0x100 * n
def Reg.ISPm_OVERFLOWS (n : Nat) : Nat := 0x30000c + 0x100 * n
def Reg.ISPm_MJOB_RING_LO (n : Nat) : Nat := 0x300010 + 0x100 * n
def Reg.ISPm_MJOB_RING_HI (n : Nat) : Nat := 0x300014 + 0x100 * n
def Reg.ISPm_MJOB_PROD_LO (n : Nat) : Nat := 0x300018 + 0x100 * n
def Reg.ISPm_MJOB_PROD_HI (n : Nat) : Nat := 0x30001c + 0x100 * n
def Reg.ISPm_MJOB_CONS (n : Nat) : Nat := 0x300020 + 0x100 * n
def Reg.VID_DCTXn_CTRL (n : Nat) : Nat := 0x500000 + 0x40 * n
def Reg.VID_DCTXn_DESC_LO (n : Nat) : Nat := 0x500004 + 0x40 * n
def Reg.VID_DCTXn_DESC_HI (n : Nat) : Nat := 0x500008 + 0x40 * n
def Reg.VID_DCTXn_STATUS (n : Nat) : Nat := 0x50000c + 0x40 * n
def Reg.VID_DCTXn_AU_CONS (n : Nat) : Nat := 0x500010 + 0x40 * n
def Reg.VID_DCTXn_PIC (n : Nat) : Nat := 0x500014 + 0x40 * n
def Reg.VID_DCTXn_CONCEALED (n : Nat) : Nat := 0x500018 + 0x40 * n
def Reg.VID_DCTXn_REJECTED (n : Nat) : Nat := 0x50001c + 0x40 * n
def Reg.VID_ECTXn_CTRL (n : Nat) : Nat := 0x501000 + 0x40 * n
def Reg.VID_ECTXn_DESC_LO (n : Nat) : Nat := 0x501004 + 0x40 * n
def Reg.VID_ECTXn_DESC_HI (n : Nat) : Nat := 0x501008 + 0x40 * n
def Reg.VID_ECTXn_STATUS (n : Nat) : Nat := 0x50100c + 0x40 * n
def Reg.VID_ECTXn_JOB_CONS (n : Nat) : Nat := 0x501010 + 0x40 * n
def Reg.VID_ECTXn_OUT_POS (n : Nat) : Nat := 0x501014 + 0x40 * n
def Reg.VID_ENGe_PIXELS_LO (n : Nat) : Nat := 0x502000 + 0x10 * n
def Reg.VID_ENGe_PIXELS_HI (n : Nat) : Nat := 0x502004 + 0x10 * n
def Reg.TAU_BSTRn_CTRL (n : Nat) : Nat := 0x400000 + 0x40 * n
def Reg.TAU_BSTRn_DESC_LO (n : Nat) : Nat := 0x400004 + 0x40 * n
def Reg.TAU_BSTRn_DESC_HI (n : Nat) : Nat := 0x400008 + 0x40 * n
def Reg.TAU_BSTRn_STATUS (n : Nat) : Nat := 0x40000c + 0x40 * n
def Reg.TAU_BSTRn_SAMPLE_CONS (n : Nat) : Nat := 0x400010 + 0x40 * n
def Reg.TAU_BSTRn_SEQ (n : Nat) : Nat := 0x400014 + 0x40 * n
def Reg.TAU_BSTRn_CORRUPT (n : Nat) : Nat := 0x400018 + 0x40 * n
def Reg.TAU_BSTRn_TIMEOUTS (n : Nat) : Nat := 0x40001c + 0x40 * n
def Reg.TAU_STATUS : Nat := 0x401000
def Reg.TAU_PIXELS_LO : Nat := 0x401008
def Reg.TAU_PIXELS_HI : Nat := 0x40100c
def Reg.HPx_STATUS (n : Nat) : Nat := 0x80000 + 0x10000 * n
def Reg.HPx_FW_ABI (n : Nat) : Nat := 0x80004 + 0x10000 * n
def Reg.HPx_ATTACH (n : Nat) : Nat := 0x80008 + 0x10000 * n
def Reg.HPx_ATTACH_STATUS (n : Nat) : Nat := 0x8000c + 0x10000 * n
def Reg.HPx_HEARTBEAT (n : Nat) : Nat := 0x80010 + 0x10000 * n
def Reg.HPx_HB_INTERVAL (n : Nat) : Nat := 0x80014 + 0x10000 * n
def Reg.HPx_HB_AGE (n : Nat) : Nat := 0x80018 + 0x10000 * n
def Reg.HPx_WIN_BASE_LO (n : Nat) : Nat := 0x80020 + 0x10000 * n
def Reg.HPx_WIN_BASE_HI (n : Nat) : Nat := 0x80024 + 0x10000 * n
def Reg.HPx_ASQ_BASE_LO (n : Nat) : Nat := 0x80030 + 0x10000 * n
def Reg.HPx_ASQ_BASE_HI (n : Nat) : Nat := 0x80034 + 0x10000 * n
def Reg.HPx_ACQ_BASE_LO (n : Nat) : Nat := 0x80038 + 0x10000 * n
def Reg.HPx_ACQ_BASE_HI (n : Nat) : Nat := 0x8003c + 0x10000 * n
def Reg.HPx_AQ_SIZE (n : Nat) : Nat := 0x80040 + 0x10000 * n
def Reg.HPx_EVENT (n : Nat) : Nat := 0x80050 + 0x10000 * n
def Reg.HPx_EVENT_EN (n : Nat) : Nat := 0x80054 + 0x10000 * n
def Reg.HPx_DB_ERR (n : Nat) : Nat := 0x80058 + 0x10000 * n
def Reg.HPx_DB_ERRS (n : Nat) : Nat := 0x8005c + 0x10000 * n
def Reg.HPx_RESET (n : Nat) : Nat := 0x80060 + 0x10000 * n
def Reg.SEMn (n : Nat) : Nat := 0x10000 + 0x4 * n
def Reg.SEM_HELD_A_LO : Nat := 0x10100
def Reg.SEM_HELD_A_HI : Nat := 0x10104
def Reg.SEM_HELD_B_LO : Nat := 0x10108
def Reg.SEM_HELD_B_HI : Nat := 0x1010c
def Reg.SEM_LAST_LO : Nat := 0x10110
def Reg.SEM_LAST_HI : Nat := 0x10114
def Reg.QM_STATUS : Nat := 0x100000
def Reg.QM_DEADLOCKS : Nat := 0x100004
def Reg.QM_FLAG_SET : Nat := 0x100008
def Reg.QM_FLAG_CLR : Nat := 0x10000c
def Reg.QM_FLAG_WSEL : Nat := 0x100100
def Reg.QM_FLAG_WORD : Nat := 0x100104
def Reg.QM_OWN_SEL : Nat := 0x100110
def Reg.QM_OWN : Nat := 0x100114
def Reg.QM_Q_SEL : Nat := 0x100120
def Reg.QM_Q_STATE : Nat := 0x100124
def Reg.QM_Q_SQ_CONS : Nat := 0x100128
def Reg.QM_Q_SQ_TAIL : Nat := 0x10012c
def Reg.QM_Q_CQ_PROD : Nat := 0x100130
def Reg.QM_Q_CQ_HEAD : Nat := 0x100134
def Reg.QM_Q_RUNNING : Nat := 0x100138
def Reg.STC_HEALTH_CCn (n : Nat) : Nat := 0x40800 + 0x4 * n
def Reg.STC_HEALTH_SUM : Nat := 0x40820
def Reg.STC_DETECTIONS : Nat := 0x40824
def Reg.STC_REPLAYS : Nat := 0x40828
def Reg.STC_UNRECOVERED : Nat := 0x4082c
def Reg.STC_ECC_CORR : Nat := 0x40830
def Reg.STC_FLOG_WPTR : Nat := 0x40840
def Reg.STC_FLOG_RADDR : Nat := 0x40844
def Reg.STC_FLOG_RDATA : Nat := 0x40848
def Reg.STC_FTEST_CTRL : Nat := 0x40850
def Reg.STC_FTEST_SEL : Nat := 0x40854
def Reg.STC_FTEST_RES : Nat := 0x40858
def Reg.STC_FTEST_VF : Nat := 0x4085c
def Reg.STC_FTEST_TEMP : Nat := 0x40860
def Reg.STC_PACK_VERSION : Nat := 0x40864
def Reg.STC_FTEST_RUNS : Nat := 0x40868
def Reg.STC_FTEST_FAILS : Nat := 0x4086c
def Reg.PM_MODE : Nat := 0x20000
def Reg.PM_CAP : Nat := 0x20004
def Reg.PM_FLOOR : Nat := 0x20008
def Reg.PM_THERM : Nat := 0x2000c
def Reg.PM_UNMEASURED : Nat := 0x20010
def Reg.PM_STATUS : Nat := 0x20020
def Reg.PM_EVENT : Nat := 0x20024
def Reg.PM_POWER : Nat := 0x20028
def Reg.PM_BUDGET_A : Nat := 0x2002c
def Reg.PM_BUDGET_B : Nat := 0x20030
def Reg.PM_EST_CORR : Nat := 0x20034
def Reg.PM_TJ : Nat := 0x20038
def Reg.PM_TELEM_ACK : Nat := 0x2003c
def Reg.PM_DROOP_COUNT : Nat := 0x20040
def Reg.PM_WARN_COUNT : Nat := 0x20044
def Reg.PM_WARN_TIME_LO : Nat := 0x20048
def Reg.PM_WARN_TIME_HI : Nat := 0x2004c
def Reg.PM_SUPPLY_LOG : Nat := 0x20050
def Reg.PM_SUPPLY_TIME_LO : Nat := 0x20054
def Reg.PM_SUPPLY_TIME_HI : Nat := 0x20058
def Reg.PM_IDLE_CTRL : Nat := 0x20060
def Reg.PM_PHASE_SEL : Nat := 0x20070
def Reg.PM_PHASE_DATA : Nat := 0x20074
def Reg.PM_RAILm_CFG (n : Nat) : Nat := 0x20100 + 0x8 * n
def Reg.PM_RAILm_READ (n : Nat) : Nat := 0x20104 + 0x8 * n
def Reg.PM_RAIL_STATUS : Nat := 0x20140
def Reg.CPS_TIME_LO : Nat := 0x30000
def Reg.CPS_TIME_HI : Nat := 0x30004
def Reg.CPS_STATUS : Nat := 0x30008
def Reg.CPS_EVENT : Nat := 0x3000c
def Reg.CPS_CTRL : Nat := 0x30010
def Reg.CPS_LOCK_CFG : Nat := 0x30014
def Reg.CPS_TRIM : Nat := 0x30018
def Reg.CPS_RATE : Nat := 0x3001c
def Reg.CPS_ADJ_LO : Nat := 0x30020
def Reg.CPS_ADJ_HI : Nat := 0x30024
def Reg.CPS_ADJ_CMD : Nat := 0x30028
def Reg.CPS_ADJ_REMAIN : Nat := 0x3002c
def Reg.CPS_REF_ERR : Nat := 0x30030
def Reg.CPS_STEP_COUNT : Nat := 0x30034
def Reg.CPS_FSYNCn_CTRL (n : Nat) : Nat := 0x30100 + 0x20 * n
def Reg.CPS_FSYNCn_START_LO (n : Nat) : Nat := 0x30104 + 0x20 * n
def Reg.CPS_FSYNCn_START_HI (n : Nat) : Nat := 0x30108 + 0x20 * n
def Reg.CPS_FSYNCn_PERIOD (n : Nat) : Nat := 0x3010c + 0x20 * n
def Reg.CPS_FSYNCn_WIDTH (n : Nat) : Nat := 0x30110 + 0x20 * n
def Reg.CPS_FSYNCn_COUNT (n : Nat) : Nat := 0x30114 + 0x20 * n
def Reg.CPS_PPS_CTRL : Nat := 0x30400
def Reg.CPS_SYNC_CTRL : Nat := 0x30404
def Reg.CPS_EVTe_CTRL (n : Nat) : Nat := 0x30500 + 0x10 * n
def Reg.CPS_EVTe_STAMP_LO (n : Nat) : Nat := 0x30504 + 0x10 * n
def Reg.CPS_EVTe_STAMP_HI (n : Nat) : Nat := 0x30508 + 0x10 * n
def Reg.CPS_EVTe_INFO (n : Nat) : Nat := 0x3050c + 0x10 * n
def Reg.FAB_CFG : Nat := 0x600000
def Reg.FAB_TIMING : Nat := 0x600004
def Reg.FAB_ROUTE_LO : Nat := 0x600008
def Reg.FAB_ROUTE_HI : Nat := 0x60000c
def Reg.FAB_RFLAG_BASE : Nat := 0x600010
def Reg.FAB_RFLAG_COUNT : Nat := 0x600014
def Reg.FAB_STATUS : Nat := 0x600020
def Reg.FAB_EVENT : Nat := 0x600024
def Reg.FAB_ROOT_UID_LO : Nat := 0x600028
def Reg.FAB_ROOT_UID_HI : Nat := 0x60002c
def Reg.FAB_DROPS : Nat := 0x600030
def Reg.FAB_IN_REFUSED : Nat := 0x600034
def Reg.FAB_MCAST_PRUNED (n : Nat) : Nat := 0x600040 + 0x4 * n
def Reg.FAB_MCAST_JOIN : Nat := 0x600060
def Reg.FAB_PORTp_STATUS (n : Nat) : Nat := 0x600100 + 0x20 * n
def Reg.FAB_PORTp_RETRIES (n : Nat) : Nat := 0x600104 + 0x20 * n
def Reg.FAB_PORTp_CRC_ERR (n : Nat) : Nat := 0x600108 + 0x20 * n
def Reg.FAB_PORTp_DOWNS (n : Nat) : Nat := 0x60010c + 0x20 * n
def Reg.FAB_PORTp_DELAY (n : Nat) : Nat := 0x600110 + 0x20 * n
def Reg.FAB_WINw_BASE_LO (n : Nat) : Nat := 0x600200 + 0x10 * n
def Reg.FAB_WINw_BASE_HI (n : Nat) : Nat := 0x600204 + 0x10 * n
def Reg.FAB_WINw_SIZE (n : Nat) : Nat := 0x600208 + 0x10 * n
def Reg.FAB_SRINGr_CTRL (n : Nat) : Nat := 0x600400 + 0x20 * n
def Reg.FAB_SRINGr_BASE_LO (n : Nat) : Nat := 0x600404 + 0x20 * n
def Reg.FAB_SRINGr_BASE_HI (n : Nat) : Nat := 0x600408 + 0x20 * n
def Reg.FAB_SRINGr_PROD_LO (n : Nat) : Nat := 0x60040c + 0x20 * n
def Reg.FAB_SRINGr_PROD_HI (n : Nat) : Nat := 0x600410 + 0x20 * n
def Reg.FAB_SRINGr_CONS (n : Nat) : Nat := 0x600414 + 0x20 * n
def Reg.FAB_SRINGr_STATUS (n : Nat) : Nat := 0x600418 + 0x20 * n
def Reg.FW_STATUS : Nat := 0x60000
def Reg.FW_LOAD : Nat := 0x60004
def Reg.FW_LOAD_RESULT : Nat := 0x60008
def Reg.FW_VERSION : Nat := 0x6000c
def Reg.FW_SVN : Nat := 0x60010
def Reg.FW_ROM_VERSION : Nat := 0x60014
def Reg.FW_RESTARTS : Nat := 0x60018
def Reg.FW_LAST_RESTART : Nat := 0x6001c
def Reg.FW_ACT_RESULT : Nat := 0x60020
def Reg.FW_EVENT : Nat := 0x60024
def Reg.FW_DIGESTi (n : Nat) : Nat := 0x60040 + 0x4 * n
def Reg.FW_STAGED_DIGESTi (n : Nat) : Nat := 0x60060 + 0x4 * n
def Reg.FW_CAL_ADDR_LO : Nat := 0x60100
def Reg.FW_CAL_ADDR_HI : Nat := 0x60104
def Reg.FW_CAL_CMD : Nat := 0x60108
def Reg.FW_CAL_STATUS : Nat := 0x6010c
def Reg.SEC_STATUS : Nat := 0x50000
def Reg.SEC_SLOT_USE : Nat := 0x50004
def Reg.SEC_DBG_CMD : Nat := 0x50010
def Reg.SEC_DBG_STATUS : Nat := 0x50014
def Reg.SEC_DBG_RESP_LO : Nat := 0x50018
def Reg.SEC_DBG_RESP_HI : Nat := 0x5001c
def Reg.SEC_DBG_CHALi (n : Nat) : Nat := 0x50020 + 0x4 * n
def Reg.SEC_RNG_DATA : Nat := 0x50040
def Reg.STC_START_STATUS : Nat := 0x40000
def Reg.STC_RESET_CAUSE : Nat := 0x40004
def Reg.STC_STOP_STATUS : Nat := 0x40008
def Reg.STC_BIST_FAIL : Nat := 0x4000c
def Reg.STC_ALIVE : Nat := 0x40010

def Fld.GLB_DEVICE_ID_PART : Fld := ⟨16, 16⟩
def Fld.GLB_DEVICE_ID_STEP : Fld := ⟨8, 8⟩
def Fld.GLB_STAGE_ADDR_DIRTY : Fld := ⟨31, 1⟩
def Fld.GLB_COMMIT_CMD_PORT : Fld := ⟨8, 5⟩
def Fld.GLB_COMMIT_CMD_MODE : Fld := ⟨4, 2⟩
def Fld.GLB_COMMIT_CMD_CMD : Fld := ⟨0, 4⟩
def Fld.GLB_COMMIT_STATUS_DIRTY : Fld := ⟨11, 1⟩
def Fld.GLB_COMMIT_STATUS_PEND_OWN : Fld := ⟨10, 1⟩
def Fld.GLB_COMMIT_STATUS_PENDING : Fld := ⟨9, 1⟩
def Fld.GLB_COMMIT_STATUS_CHECKING : Fld := ⟨8, 1⟩
def Fld.GLB_COMMIT_STATUS_CODE : Fld := ⟨0, 8⟩
def Fld.GLB_COMMIT_FAIL_OFFSET_OFFSET : Fld := ⟨0, 25⟩
def Fld.GLB_COMMIT_TIMEOUT_MS : Fld := ⟨0, 16⟩
def Fld.GLB_SNAP_CMD_TAKE : Fld := ⟨0, 1⟩
def Fld.GLB_SNAP_STATUS_CODE : Fld := ⟨0, 8⟩
def Fld.CCn_QSTAT_FLAGS_STAT_OVF : Fld := ⟨5, 1⟩
def Fld.CCn_QSTAT_FLAGS_SHIFT_CLAMP : Fld := ⟨4, 1⟩
def Fld.CCn_QSTAT_FLAGS_BLOCK_NAN : Fld := ⟨3, 1⟩
def Fld.CCn_QSTAT_FLAGS_CLIP : Fld := ⟨2, 1⟩
def Fld.CCn_QSTAT_FLAGS_INF_IN : Fld := ⟨1, 1⟩
def Fld.CCn_QSTAT_FLAGS_NAN_OUT : Fld := ⟨0, 1⟩
def Fld.CCn_STATUS_STATE : Fld := ⟨0, 3⟩
def Fld.CCn_STATUS_LEADER : Fld := ⟨3, 1⟩
def Fld.CCn_STATUS_GANG_SIZE : Fld := ⟨4, 4⟩
def Fld.CCn_STATUS_LOGICAL : Fld := ⟨8, 3⟩
def Fld.CCn_STATUS_CONTEXT : Fld := ⟨16, 10⟩
def Fld.CCn_STICKY_ACC_WRAP : Fld := ⟨0, 1⟩
def Fld.CCn_STICKY_EMPTY_OUTPUT : Fld := ⟨1, 1⟩
def Fld.CCn_HALT_INFO_REASON : Fld := ⟨0, 8⟩
def Fld.CCn_HALT_INFO_SLOT : Fld := ⟨8, 4⟩
def Fld.CCn_HALT_INFO_PEER : Fld := ⟨12, 1⟩
def Fld.CCn_HALT_INFO_TAGGED : Fld := ⟨13, 1⟩
def Fld.CCn_HALT_INFO_CONTEXT : Fld := ⟨16, 10⟩
def Fld.CCn_HALT_INFO_LOGICAL : Fld := ⟨26, 3⟩
def Fld.CCn_DBG_CONTEXT_CONTEXT : Fld := ⟨0, 10⟩
def Fld.CCn_DBG_CONTEXT_ARM : Fld := ⟨31, 1⟩
def Fld.CCn_DBG_CMD_HALT : Fld := ⟨0, 1⟩
def Fld.CCn_DBG_CMD_RESUME : Fld := ⟨1, 1⟩
def Fld.CCn_DBG_STATUS_WR_REJECT : Fld := ⟨0, 1⟩
def Fld.CCn_BKPTb_EN : Fld := ⟨0, 1⟩
def Fld.CCn_BKPTb_ADDR : Fld := ⟨5, 27⟩
def Fld.CCn_TRAIL_CTRL_EN : Fld := ⟨0, 1⟩
def Fld.CCn_TRAIL_CTRL_MODE : Fld := ⟨1, 1⟩
def Fld.CCn_TRAIL_CTRL_TYPES : Fld := ⟨8, 8⟩
def Fld.CCn_TRAIL_CTRL_SAMPLE : Fld := ⟨16, 5⟩
def Fld.CCn_TRAIL_BASE_HI_ADDR : Fld := ⟨0, 16⟩
def Fld.CCn_TRAIL_RADDR_INDEX : Fld := ⟨0, 12⟩
def Fld.CCn_TRAIL_RADDR_WORD : Fld := ⟨12, 2⟩
def Fld.CCn_DE_STATUS_INFLIGHT : Fld := ⟨0, 10⟩
def Fld.CCn_DE_STATUS_LISTS : Fld := ⟨10, 7⟩
def Fld.CCn_DE_STATUS_FAULT : Fld := ⟨17, 1⟩
def Fld.CCn_DE_STATUS_FEED_WAIT : Fld := ⟨18, 1⟩
def Fld.CCn_DE_STATUS_REG_HELD : Fld := ⟨19, 1⟩
def Fld.CCn_DE_FAULT_INFO_REASON : Fld := ⟨0, 8⟩
def Fld.CCn_DE_FAULT_INFO_INDEX : Fld := ⟨8, 12⟩
def Fld.CCn_DE_FAULT_DESC_OFFSET : Fld := ⟨0, 24⟩
def Fld.CCn_DE_FAULT_ADDR_HI_ADDR : Fld := ⟨0, 16⟩
def Fld.CCn_BWR_RATE_RATE : Fld := ⟨0, 20⟩
def Fld.CCn_BWR_BURST_BURST : Fld := ⟨0, 25⟩
def Fld.CCn_BWR_LEVEL_BYTES : Fld := ⟨0, 25⟩
def Fld.MC_CFG_CAP : Fld := ⟨0, 2⟩
def Fld.MC_CFG_RATE : Fld := ⟨8, 8⟩
def Fld.MC_STATUS_REFRESH_X2 : Fld := ⟨0, 1⟩
def Fld.MC_STATUS_SCRUB_DONE : Fld := ⟨1, 1⟩
def Fld.MC_ARB_SYS_WEIGHT : Fld := ⟨0, 4⟩
def Fld.MC_ARB_CORE_WEIGHT : Fld := ⟨4, 4⟩
def Fld.MC_BWR_CTX_SEL_CONTEXT : Fld := ⟨0, 10⟩
def Fld.MC_BWR_CTX_RATE_RATE : Fld := ⟨0, 20⟩
def Fld.MC_BWR_CTX_BURST_BURST : Fld := ⟨0, 25⟩
def Fld.MC_BWR_CTX_LEVEL_BYTES : Fld := ⟨0, 25⟩
def Fld.MC_BWR_STATUS_WR_REJECT : Fld := ⟨0, 1⟩
def Fld.CAM_CSIi_CFG_MODE : Fld := ⟨0, 3⟩
def Fld.CAM_CSIi_CFG_TRIOS : Fld := ⟨3, 2⟩
def Fld.CAM_CSIi_CFG_DESKEW : Fld := ⟨5, 1⟩
def Fld.CAM_CSIi_CFG_RATE : Fld := ⟨16, 13⟩
def Fld.CAM_CSIi_STATUS_SYNC_A : Fld := ⟨0, 1⟩
def Fld.CAM_CSIi_STATUS_SYNC_B : Fld := ⟨1, 1⟩
def Fld.CAM_CSIi_STATUS_DESKEW_DONE : Fld := ⟨2, 1⟩
def Fld.CAM_SCBj_CFG_MODE : Fld := ⟨0, 2⟩
def Fld.CAM_SCBj_XFER_ADDR : Fld := ⟨0, 7⟩
def Fld.CAM_SCBj_XFER_DIR : Fld := ⟨7, 1⟩
def Fld.CAM_SCBj_XFER_LEN : Fld := ⟨8, 2⟩
def Fld.CAM_SCBj_XFER_REG : Fld := ⟨16, 16⟩
def Fld.CAM_SCBj_XSTATUS_BUSY : Fld := ⟨0, 1⟩
def Fld.CAM_SCBj_XSTATUS_NACK : Fld := ⟨1, 1⟩
def Fld.CAM_SCBj_XSTATUS_WR_REJECT : Fld := ⟨2, 1⟩
def Fld.CAM_STRn_CTRL_EN : Fld := ⟨0, 1⟩
def Fld.CAM_STRn_DESC_HI_ADDR : Fld := ⟨0, 16⟩
def Fld.CAM_STRn_STATUS_STATE : Fld := ⟨0, 2⟩
def Fld.CAM_STRn_STATUS_PS_OVERRUN : Fld := ⟨2, 1⟩
def Fld.CAM_STRn_PS_IN_FORCE_ISP_PS : Fld := ⟨0, 16⟩
def Fld.ISPm_STATUS_STREAMS : Fld := ⟨0, 4⟩
def Fld.ISPm_STATUS_MJOB_BUSY : Fld := ⟨4, 1⟩
def Fld.ISPm_MJOB_RING_HI_ADDR : Fld := ⟨0, 16⟩
def Fld.ISPm_MJOB_PROD_HI_ADDR : Fld := ⟨0, 16⟩
def Fld.VID_DCTXn_CTRL_EN : Fld := ⟨0, 1⟩
def Fld.VID_DCTXn_DESC_HI_ADDR : Fld := ⟨0, 16⟩
def Fld.VID_DCTXn_STATUS_STATE : Fld := ⟨0, 2⟩
def Fld.VID_ECTXn_CTRL_EN : Fld := ⟨0, 1⟩
def Fld.VID_ECTXn_DESC_HI_ADDR : Fld := ⟨0, 16⟩
def Fld.VID_ECTXn_STATUS_STATE : Fld := ⟨0, 2⟩
def Fld.TAU_BSTRn_CTRL_EN : Fld := ⟨0, 1⟩
def Fld.TAU_BSTRn_DESC_HI_ADDR : Fld := ⟨0, 16⟩
def Fld.TAU_BSTRn_STATUS_STATE : Fld := ⟨0, 2⟩
def Fld.TAU_BSTRn_STATUS_FLAG_WAIT : Fld := ⟨2, 1⟩
def Fld.TAU_STATUS_BUSY : Fld := ⟨0, 1⟩
def Fld.TAU_STATUS_STREAM : Fld := ⟨8, 6⟩
def Fld.HPx_STATUS_STATE : Fld := ⟨0, 3⟩
def Fld.HPx_STATUS_WR_REJECT : Fld := ⟨3, 1⟩
def Fld.HPx_FW_ABI_ABI : Fld := ⟨0, 16⟩
def Fld.HPx_ATTACH_ABI : Fld := ⟨0, 16⟩
def Fld.HPx_ATTACH_CMD : Fld := ⟨16, 2⟩
def Fld.HPx_ATTACH_STATUS_CODE : Fld := ⟨0, 8⟩
def Fld.HPx_HB_INTERVAL_MS : Fld := ⟨0, 10⟩
def Fld.HPx_WIN_BASE_HI_ADDR : Fld := ⟨0, 16⟩
def Fld.HPx_ASQ_BASE_HI_ADDR : Fld := ⟨0, 16⟩
def Fld.HPx_ACQ_BASE_HI_ADDR : Fld := ⟨0, 16⟩
def Fld.HPx_AQ_SIZE_SQ_LOG2 : Fld := ⟨0, 5⟩
def Fld.HPx_AQ_SIZE_CQ_LOG2 : Fld := ⟨8, 5⟩
def Fld.HPx_EVENT_PEER_LOST : Fld := ⟨0, 1⟩
def Fld.HPx_EVENT_PEER_ATTACHED : Fld := ⟨1, 1⟩
def Fld.HPx_EVENT_DEADLOCK : Fld := ⟨2, 1⟩
def Fld.HPx_EVENT_DB_ERROR : Fld := ⟨3, 1⟩
def Fld.HPx_EVENT_CAM : Fld := ⟨4, 1⟩
def Fld.HPx_EVENT_EN_EN : Fld := ⟨0, 5⟩
def Fld.HPx_DB_ERR_QUEUE : Fld := ⟨0, 16⟩
def Fld.HPx_DB_ERR_CODE : Fld := ⟨16, 3⟩
def Fld.SEMn_MINE : Fld := ⟨0, 1⟩
def Fld.SEMn_OTHER : Fld := ⟨1, 1⟩
def Fld.QM_STATUS_QUEUES : Fld := ⟨0, 17⟩
def Fld.QM_STATUS_CONTEXTS : Fld := ⟨17, 11⟩
def Fld.QM_FLAG_SET_FLAG : Fld := ⟨0, 18⟩
def Fld.QM_FLAG_CLR_FLAG : Fld := ⟨0, 18⟩
def Fld.QM_FLAG_WSEL_WORD : Fld := ⟨0, 13⟩
def Fld.QM_OWN_SEL_INDEX : Fld := ⟨0, 16⟩
def Fld.QM_OWN_SEL_CLASS : Fld := ⟨16, 4⟩
def Fld.QM_OWN_OWNER : Fld := ⟨0, 2⟩
def Fld.QM_Q_SEL_QUEUE : Fld := ⟨0, 16⟩
def Fld.QM_Q_STATE_STATE : Fld := ⟨0, 3⟩
def Fld.QM_Q_STATE_PERSIST : Fld := ⟨3, 1⟩
def Fld.QM_Q_STATE_DEADLOCKED : Fld := ⟨4, 1⟩
def Fld.QM_Q_STATE_VECTOR : Fld := ⟨16, 11⟩
def Fld.QM_Q_RUNNING_COUNT : Fld := ⟨0, 16⟩
def Fld.STC_HEALTH_CCn_MA0 : Fld := ⟨0, 2⟩
def Fld.STC_HEALTH_CCn_MA1 : Fld := ⟨2, 2⟩
def Fld.STC_HEALTH_CCn_MA2 : Fld := ⟨4, 2⟩
def Fld.STC_HEALTH_CCn_MA3 : Fld := ⟨6, 2⟩
def Fld.STC_HEALTH_CCn_LOGIC : Fld := ⟨8, 2⟩
def Fld.STC_HEALTH_CCn_MEM : Fld := ⟨10, 2⟩
def Fld.STC_HEALTH_CCn_HOST : Fld := ⟨12, 3⟩
def Fld.STC_HEALTH_CCn_FACTOR : Fld := ⟨16, 7⟩
def Fld.STC_HEALTH_SUM_OBSERVED : Fld := ⟨0, 6⟩
def Fld.STC_HEALTH_SUM_FENCED : Fld := ⟨6, 6⟩
def Fld.STC_HEALTH_SUM_FIELD_OVERDUE : Fld := ⟨12, 1⟩
def Fld.STC_HEALTH_SUM_RECORD_DIRTY : Fld := ⟨13, 1⟩
def Fld.STC_HEALTH_SUM_WR_REJECT : Fld := ⟨14, 1⟩
def Fld.STC_FLOG_RADDR_INDEX : Fld := ⟨0, 8⟩
def Fld.STC_FLOG_RADDR_WORD : Fld := ⟨8, 3⟩
def Fld.STC_FTEST_CTRL_EN : Fld := ⟨0, 1⟩
def Fld.STC_FTEST_SEL_UNIT : Fld := ⟨0, 6⟩
def Fld.STC_FTEST_RES_RESULT : Fld := ⟨0, 2⟩
def Fld.STC_FTEST_RES_MARGIN_FULL : Fld := ⟨2, 1⟩
def Fld.STC_FTEST_RES_AGE : Fld := ⟨16, 16⟩
def Fld.STC_FTEST_VF_MV : Fld := ⟨0, 16⟩
def Fld.STC_FTEST_VF_MHZ : Fld := ⟨16, 16⟩
def Fld.STC_FTEST_TEMP_TEMP : Fld := ⟨0, 16⟩
def Fld.PM_MODE_MODE : Fld := ⟨0, 2⟩
def Fld.PM_MODE_FIXED_STEP : Fld := ⟨2, 4⟩
def Fld.PM_MODE_FALLBACK_STEP : Fld := ⟨6, 4⟩
def Fld.PM_MODE_BOOST_EN : Fld := ⟨10, 1⟩
def Fld.PM_CAP_CAP : Fld := ⟨0, 10⟩
def Fld.PM_FLOOR_SENSE : Fld := ⟨0, 8⟩
def Fld.PM_FLOOR_LINKS : Fld := ⟨8, 8⟩
def Fld.PM_FLOOR_MEM : Fld := ⟨16, 8⟩
def Fld.PM_THERM_T1 : Fld := ⟨0, 8⟩
def Fld.PM_THERM_T2 : Fld := ⟨8, 8⟩
def Fld.PM_UNMEASURED_POWER : Fld := ⟨0, 16⟩
def Fld.PM_STATUS_STEP : Fld := ⟨0, 4⟩
def Fld.PM_STATUS_SUST_STEP : Fld := ⟨4, 4⟩
def Fld.PM_STATUS_CAP_STATE : Fld := ⟨8, 2⟩
def Fld.PM_STATUS_THERM_LEVEL : Fld := ⟨10, 2⟩
def Fld.PM_STATUS_WARN_ACTIVE : Fld := ⟨12, 1⟩
def Fld.PM_STATUS_SAFE_STEP : Fld := ⟨13, 1⟩
def Fld.PM_STATUS_DISAGREE : Fld := ⟨14, 1⟩
def Fld.PM_STATUS_LIMIT : Fld := ⟨15, 4⟩
def Fld.PM_STATUS_IDLE : Fld := ⟨19, 2⟩
def Fld.PM_EVENT_WARN : Fld := ⟨0, 1⟩
def Fld.PM_EVENT_EMERGENCY : Fld := ⟨1, 1⟩
def Fld.PM_EVENT_TELEMETRY_DISAGREE : Fld := ⟨2, 1⟩
def Fld.PM_EVENT_RAIL_SUSPECT : Fld := ⟨3, 1⟩
def Fld.PM_EVENT_THERM1 : Fld := ⟨4, 1⟩
def Fld.PM_EVENT_THERM2 : Fld := ⟨5, 1⟩
def Fld.PM_EVENT_FIXED_LOST : Fld := ⟨6, 1⟩
def Fld.PM_EVENT_REG_FAULT : Fld := ⟨7, 1⟩
def Fld.PM_EVENT_WR_REJECT : Fld := ⟨8, 1⟩
def Fld.PM_POWER_MEAS : Fld := ⟨0, 16⟩
def Fld.PM_POWER_EST : Fld := ⟨16, 16⟩
def Fld.PM_BUDGET_A_COMP : Fld := ⟨0, 16⟩
def Fld.PM_BUDGET_A_MEM : Fld := ⟨16, 16⟩
def Fld.PM_BUDGET_B_LINKS : Fld := ⟨0, 16⟩
def Fld.PM_BUDGET_B_SENSE : Fld := ⟨16, 16⟩
def Fld.PM_EST_CORR_K : Fld := ⟨0, 16⟩
def Fld.PM_TJ_TEMP : Fld := ⟨0, 16⟩
def Fld.PM_TJ_SENSOR : Fld := ⟨16, 5⟩
def Fld.PM_TELEM_ACK_ACK : Fld := ⟨0, 1⟩
def Fld.PM_SUPPLY_LOG_RAIL : Fld := ⟨0, 2⟩
def Fld.PM_SUPPLY_LOG_VALID : Fld := ⟨2, 1⟩
def Fld.PM_IDLE_CTRL_AUTO : Fld := ⟨0, 1⟩
def Fld.PM_IDLE_CTRL_DEEP : Fld := ⟨1, 1⟩
def Fld.PM_IDLE_CTRL_WAKE : Fld := ⟨2, 1⟩
def Fld.PM_IDLE_CTRL_DELAY : Fld := ⟨16, 16⟩
def Fld.PM_PHASE_SEL_CONTEXT : Fld := ⟨0, 10⟩
def Fld.PM_PHASE_SEL_PHASE : Fld := ⟨16, 8⟩
def Fld.PM_PHASE_DATA_H : Fld := ⟨0, 16⟩
def Fld.PM_PHASE_DATA_VALID : Fld := ⟨16, 1⟩
def Fld.PM_RAILm_CFG_EN : Fld := ⟨0, 1⟩
def Fld.PM_RAILm_CFG_AVS_RAIL : Fld := ⟨1, 4⟩
def Fld.PM_RAILm_CFG_PMBUS_ADDR : Fld := ⟨5, 7⟩
def Fld.PM_RAILm_CFG_CORE : Fld := ⟨12, 1⟩
def Fld.PM_RAILm_READ_MV : Fld := ⟨0, 16⟩
def Fld.PM_RAILm_READ_CURRENT : Fld := ⟨16, 16⟩
def Fld.PM_RAIL_STATUS_SUSPECT : Fld := ⟨0, 8⟩
def Fld.PM_RAIL_STATUS_FAULT : Fld := ⟨8, 8⟩
def Fld.CPS_STATUS_VALID : Fld := ⟨0, 1⟩
def Fld.CPS_STATUS_STATE : Fld := ⟨1, 2⟩
def Fld.CPS_STATUS_FOLLOWER : Fld := ⟨3, 1⟩
def Fld.CPS_STATUS_SLEWING : Fld := ⟨4, 1⟩
def Fld.CPS_EVENT_STEPPED : Fld := ⟨0, 1⟩
def Fld.CPS_EVENT_REF_LOST : Fld := ⟨1, 1⟩
def Fld.CPS_EVENT_REF_GLITCH : Fld := ⟨2, 1⟩
def Fld.CPS_EVENT_LOCKED : Fld := ⟨3, 1⟩
def Fld.CPS_EVENT_UNLOCKED : Fld := ⟨4, 1⟩
def Fld.CPS_EVENT_EVT_OVF : Fld := ⟨5, 1⟩
def Fld.CPS_EVENT_WR_REJECT : Fld := ⟨6, 1⟩
def Fld.CPS_CTRL_SOURCE : Fld := ⟨0, 1⟩
def Fld.CPS_CTRL_STEP_EN : Fld := ⟨1, 1⟩
def Fld.CPS_CTRL_GP : Fld := ⟨2, 5⟩
def Fld.CPS_CTRL_GI : Fld := ⟨7, 5⟩
def Fld.CPS_CTRL_SLEW_PPM : Fld := ⟨12, 9⟩
def Fld.CPS_LOCK_CFG_LOCK_NS : Fld := ⟨0, 16⟩
def Fld.CPS_LOCK_CFG_STEP_US : Fld := ⟨16, 16⟩
def Fld.CPS_ADJ_CMD_CMD : Fld := ⟨0, 2⟩
def Fld.CPS_FSYNCn_CTRL_MODE : Fld := ⟨0, 1⟩
def Fld.CPS_FSYNCn_CTRL_POL : Fld := ⟨1, 1⟩
def Fld.CPS_PPS_CTRL_EN : Fld := ⟨0, 1⟩
def Fld.CPS_PPS_CTRL_WIDTH_MS : Fld := ⟨1, 9⟩
def Fld.CPS_SYNC_CTRL_EN : Fld := ⟨0, 1⟩
def Fld.CPS_SYNC_CTRL_BAUD : Fld := ⟨1, 2⟩
def Fld.CPS_EVTe_CTRL_EN : Fld := ⟨0, 1⟩
def Fld.CPS_EVTe_CTRL_EDGE : Fld := ⟨1, 2⟩
def Fld.CPS_EVTe_INFO_SUB : Fld := ⟨0, 3⟩
def Fld.CPS_EVTe_INFO_FALL : Fld := ⟨3, 1⟩
def Fld.CPS_EVTe_INFO_EMPTY : Fld := ⟨4, 1⟩
def Fld.CPS_EVTe_INFO_DEPTH : Fld := ⟨5, 7⟩
def Fld.CPS_EVTe_INFO_OVF : Fld := ⟨16, 16⟩
def Fld.FAB_CFG_FAB_ID : Fld := ⟨0, 12⟩
def Fld.FAB_CFG_PRIORITY : Fld := ⟨12, 8⟩
def Fld.FAB_CFG_PORT_EN : Fld := ⟨20, 4⟩
def Fld.FAB_TIMING_ACK_US : Fld := ⟨0, 16⟩
def Fld.FAB_ROUTE_HI_ADDR : Fld := ⟨0, 16⟩
def Fld.FAB_RFLAG_BASE_FLAG : Fld := ⟨0, 18⟩
def Fld.FAB_RFLAG_COUNT_COUNT : Fld := ⟨0, 19⟩
def Fld.FAB_STATUS_ROOT_ID : Fld := ⟨0, 12⟩
def Fld.FAB_STATUS_IS_ROOT : Fld := ⟨12, 1⟩
def Fld.FAB_STATUS_ISOLATED : Fld := ⟨13, 1⟩
def Fld.FAB_STATUS_ROOT_DIST : Fld := ⟨14, 4⟩
def Fld.FAB_STATUS_PARENT : Fld := ⟨18, 2⟩
def Fld.FAB_STATUS_PARENT_VALID : Fld := ⟨20, 1⟩
def Fld.FAB_STATUS_SYNC_LOCKED : Fld := ⟨21, 1⟩
def Fld.FAB_EVENT_LINK_DOWN : Fld := ⟨0, 1⟩
def Fld.FAB_EVENT_LINK_UP : Fld := ⟨1, 1⟩
def Fld.FAB_EVENT_ROOT_CHANGE : Fld := ⟨2, 1⟩
def Fld.FAB_EVENT_ID_CONFLICT : Fld := ⟨3, 1⟩
def Fld.FAB_EVENT_PRUNED : Fld := ⟨4, 1⟩
def Fld.FAB_EVENT_PRUNE_DONE : Fld := ⟨5, 1⟩
def Fld.FAB_EVENT_RING_ERR : Fld := ⟨6, 1⟩
def Fld.FAB_EVENT_WR_REJECT : Fld := ⟨7, 1⟩
def Fld.FAB_MCAST_JOIN_GROUP : Fld := ⟨0, 8⟩
def Fld.FAB_PORTp_STATUS_STATE : Fld := ⟨0, 2⟩
def Fld.FAB_PORTp_STATUS_WIDTH : Fld := ⟨2, 2⟩
def Fld.FAB_PORTp_STATUS_GEN : Fld := ⟨4, 1⟩
def Fld.FAB_PORTp_STATUS_NBR_ID : Fld := ⟨5, 12⟩
def Fld.FAB_PORTp_STATUS_NBR_VALID : Fld := ⟨17, 1⟩
def Fld.FAB_PORTp_DELAY_DELAY : Fld := ⟨0, 24⟩
def Fld.FAB_WINw_BASE_HI_ADDR : Fld := ⟨0, 16⟩
def Fld.FAB_WINw_BASE_HI_EN : Fld := ⟨31, 1⟩
def Fld.FAB_WINw_SIZE_PAGES : Fld := ⟨0, 21⟩
def Fld.FAB_SRINGr_CTRL_EN : Fld := ⟨0, 1⟩
def Fld.FAB_SRINGr_CTRL_LOG2 : Fld := ⟨1, 4⟩
def Fld.FAB_SRINGr_BASE_HI_ADDR : Fld := ⟨0, 16⟩
def Fld.FAB_SRINGr_PROD_HI_ADDR : Fld := ⟨0, 16⟩
def Fld.FAB_SRINGr_STATUS_STATE : Fld := ⟨0, 2⟩
def Fld.FAB_SRINGr_STATUS_LAST_ERR : Fld := ⟨8, 8⟩
def Fld.FW_STATUS_STATE : Fld := ⟨0, 3⟩
def Fld.FW_STATUS_ACT : Fld := ⟨3, 3⟩
def Fld.FW_STATUS_QUICK_START : Fld := ⟨6, 1⟩
def Fld.FW_STATUS_CAL_USER : Fld := ⟨7, 1⟩
def Fld.FW_STATUS_CAL_PENDING : Fld := ⟨8, 1⟩
def Fld.FW_STATUS_CAL_FALLBACK : Fld := ⟨9, 1⟩
def Fld.FW_STATUS_OTP_SKIPPED : Fld := ⟨10, 1⟩
def Fld.FW_LOAD_LENGTH : Fld := ⟨0, 23⟩
def Fld.FW_LOAD_GO : Fld := ⟨31, 1⟩
def Fld.FW_LOAD_RESULT_CODE : Fld := ⟨0, 8⟩
def Fld.FW_SVN_SVN : Fld := ⟨0, 7⟩
def Fld.FW_SVN_OTP_SVN : Fld := ⟨8, 7⟩
def Fld.FW_LAST_RESTART_CAUSE : Fld := ⟨0, 2⟩
def Fld.FW_LAST_RESTART_CORE : Fld := ⟨2, 3⟩
def Fld.FW_ACT_RESULT_CODE : Fld := ⟨0, 8⟩
def Fld.FW_EVENT_RESTARTED : Fld := ⟨0, 1⟩
def Fld.FW_EVENT_ACTIVATED : Fld := ⟨1, 1⟩
def Fld.FW_EVENT_ACT_ABORTED : Fld := ⟨2, 1⟩
def Fld.FW_EVENT_STAGE_LOST : Fld := ⟨3, 1⟩
def Fld.FW_EVENT_FAILED : Fld := ⟨4, 1⟩
def Fld.FW_EVENT_WR_REJECT : Fld := ⟨5, 1⟩
def Fld.FW_CAL_ADDR_HI_ADDR : Fld := ⟨0, 16⟩
def Fld.FW_CAL_CMD_CMD : Fld := ⟨0, 2⟩
def Fld.FW_CAL_STATUS_CODE : Fld := ⟨0, 8⟩
def Fld.SEC_STATUS_ID_READY : Fld := ⟨0, 1⟩
def Fld.SEC_STATUS_ZEROISED : Fld := ⟨1, 1⟩
def Fld.SEC_STATUS_DEBUG_ENABLED : Fld := ⟨2, 1⟩
def Fld.SEC_STATUS_RNG_FAIL : Fld := ⟨3, 1⟩
def Fld.SEC_STATUS_REVOKED : Fld := ⟨4, 4⟩
def Fld.SEC_SLOT_USE_USE : Fld := ⟨0, 12⟩
def Fld.SEC_DBG_CMD_CMD : Fld := ⟨0, 2⟩
def Fld.SEC_DBG_CMD_SLOT : Fld := ⟨2, 2⟩
def Fld.SEC_DBG_STATUS_CODE : Fld := ⟨0, 3⟩
def Fld.SEC_DBG_RESP_HI_ADDR : Fld := ⟨0, 16⟩
def Fld.STC_START_STATUS_PATH : Fld := ⟨0, 2⟩
def Fld.STC_START_STATUS_PHASE : Fld := ⟨2, 2⟩
def Fld.STC_START_STATUS_REC_CODE : Fld := ⟨4, 4⟩
def Fld.STC_START_STATUS_FAIL : Fld := ⟨8, 2⟩
def Fld.STC_START_STATUS_CHANNEL : Fld := ⟨10, 4⟩
def Fld.STC_RESET_CAUSE_COLD : Fld := ⟨0, 1⟩
def Fld.STC_RESET_CAUSE_WARM : Fld := ⟨1, 1⟩
def Fld.STC_RESET_CAUSE_HOST_A : Fld := ⟨2, 1⟩
def Fld.STC_RESET_CAUSE_HOST_B : Fld := ⟨3, 1⟩
def Fld.STC_RESET_CAUSE_SUPPLY : Fld := ⟨4, 1⟩
def Fld.STC_RESET_CAUSE_THERMTRIP : Fld := ⟨5, 1⟩
def Fld.STC_STOP_STATUS_STOP_STEP : Fld := ⟨0, 3⟩
def Fld.STC_STOP_STATUS_PAIR : Fld := ⟨3, 2⟩
def Fld.STC_STOP_STATUS_REPEATED : Fld := ⟨5, 1⟩
def Fld.STC_BIST_FAIL_LBIST : Fld := ⟨0, 8⟩
def Fld.STC_BIST_FAIL_MBIST : Fld := ⟨8, 8⟩
def Fld.STC_BIST_FAIL_HAMPER : Fld := ⟨16, 1⟩
def Fld.STC_ALIVE_EN : Fld := ⟨0, 1⟩

/-- The GLB registers, from the register tables of chapter 1. -/
def regTable.GLB : List RegRow :=
  [⟨0x0, 0x0, 1, 0x0, 1, [⟨⟨16, 16⟩, .ro, 23048⟩, ⟨⟨8, 8⟩, .ro, 0⟩]⟩,
   ⟨0x8, 0x0, 1, 0x0, 1, [⟨⟨0, 32⟩, .ro, 0⟩]⟩,
   ⟨0xc, 0x0, 1, 0x0, 1, [⟨⟨0, 32⟩, .ro, 0⟩]⟩,
   ⟨0x100, 0x0, 1, 0x0, 1, [⟨⟨31, 1⟩, .ro, 0⟩, ⟨⟨2, 23⟩, .rw, 0⟩]⟩,
   ⟨0x104, 0x0, 1, 0x0, 1, [⟨⟨0, 32⟩, .ro, 0⟩]⟩,
   ⟨0x110, 0x0, 1, 0x0, 1, [⟨⟨8, 5⟩, .wo, 0⟩, ⟨⟨4, 2⟩, .wo, 0⟩, ⟨⟨0, 4⟩, .wo, 0⟩]⟩,
   ⟨0x114, 0x0, 1, 0x0, 1, [⟨⟨11, 1⟩, .ro, 0⟩, ⟨⟨10, 1⟩, .ro, 0⟩, ⟨⟨9, 1⟩, .ro, 0⟩, ⟨⟨8, 1⟩, .ro, 0⟩, ⟨⟨0, 8⟩, .ro, 0⟩]⟩,
   ⟨0x118, 0x0, 1, 0x0, 1, [⟨⟨0, 25⟩, .ro, 0⟩]⟩,
   ⟨0x120, 0x0, 1, 0x0, 1, [⟨⟨0, 32⟩, .rw, 0⟩]⟩,
   ⟨0x124, 0x0, 1, 0x0, 1, [⟨⟨0, 32⟩, .rw, 0⟩]⟩,
   ⟨0x128, 0x0, 1, 0x0, 1, [⟨⟨0, 16⟩, .rw, 0⟩]⟩,
   ⟨0x130, 0x0, 1, 0x0, 1, [⟨⟨0, 32⟩, .ro, 0⟩]⟩,
   ⟨0x134, 0x0, 1, 0x0, 1, [⟨⟨0, 32⟩, .ro, 0⟩]⟩,
   ⟨0x138, 0x0, 1, 0x0, 1, [⟨⟨0, 32⟩, .ro, 0⟩]⟩,
   ⟨0x200, 0x0, 1, 0x0, 1, [⟨⟨0, 1⟩, .wo, 0⟩]⟩,
   ⟨0x204, 0x0, 1, 0x0, 1, [⟨⟨0, 8⟩, .ro, 32⟩]⟩,
   ⟨0x208, 0x0, 1, 0x0, 1, [⟨⟨0, 32⟩, .ro, 0⟩]⟩,
   ⟨0x20c, 0x0, 1, 0x0, 1, [⟨⟨0, 32⟩, .ro, 0⟩]⟩,
   ⟨0x210, 0x0, 1, 0x0, 1, [⟨⟨2, 23⟩, .rw, 0⟩]⟩,
   ⟨0x214, 0x0, 1, 0x0, 1, [⟨⟨0, 32⟩, .ro, 0⟩]⟩,
   ⟨0x218, 0x0, 1, 0x0, 1, [⟨⟨0, 32⟩, .rw, 0⟩]⟩]

/-- The CCn registers, from the register tables of chapter 3, 4, 6. -/
def regTable.CCn0 : List RegRow :=
  [⟨0x800800, 0x10000, 8, 0x0, 1, [⟨⟨5, 1⟩, .w1c, 0⟩, ⟨⟨4, 1⟩, .w1c, 0⟩, ⟨⟨3, 1⟩, .w1c, 0⟩, ⟨⟨2, 1⟩, .w1c, 0⟩, ⟨⟨1, 1⟩, .w1c, 0⟩, ⟨⟨0, 1⟩, .w1c, 0⟩]⟩,
   ⟨0x800804, 0x10000, 8, 0x0, 1, [⟨⟨0, 32⟩, .ro, 0⟩]⟩,
   ⟨0x800808, 0x10000, 8, 0x0, 1, [⟨⟨0, 32⟩, .ro, 0⟩]⟩,
   ⟨0x80080c, 0x10000, 8, 0x0, 1, [⟨⟨0, 32⟩, .ro, 0⟩]⟩,
   ⟨0x800810, 0x10000, 8, 0x0, 1, [⟨⟨0, 32⟩, .ro, 0⟩]⟩,
   ⟨0x800814, 0x10000, 8, 0x0, 1, [⟨⟨0, 32⟩, .ro, 0⟩]⟩,
   ⟨0x800818, 0x10000, 8, 0x0, 1, [⟨⟨0, 32⟩, .ro, 0⟩]⟩,
   ⟨0x80081c, 0x10000, 8, 0x0, 1, [⟨⟨0, 32⟩, .ro, 0⟩]⟩,
   ⟨0x800000, 0x10000, 8, 0x0, 1, [⟨⟨0, 3⟩, .ro, 0⟩, ⟨⟨3, 1⟩, .ro, 0⟩, ⟨⟨4, 4⟩, .ro, 0⟩, ⟨⟨8, 3⟩, .ro, 0⟩, ⟨⟨16, 10⟩, .ro, 0⟩]⟩,
   ⟨0x800004, 0x10000, 8, 0x0, 1, [⟨⟨0, 32⟩, .ro, 0⟩]⟩,
   ⟨0x800008, 0x10000, 8, 0x0, 1, [⟨⟨0, 1⟩, .ro, 0⟩, ⟨⟨1, 1⟩, .ro, 0⟩]⟩,
   ⟨0x800100, 0x10000, 8, 0x0, 1, [⟨⟨0, 8⟩, .ro, 0⟩, ⟨⟨8, 4⟩, .ro, 0⟩, ⟨⟨12, 1⟩, .ro, 0⟩, ⟨⟨13, 1⟩, .ro, 0⟩, ⟨⟨16, 10⟩, .ro, 0⟩, ⟨⟨26, 3⟩, .ro, 0⟩]⟩,
   ⟨0x800104, 0x10000, 8, 0x0, 1, [⟨⟨0, 32⟩, .ro, 0⟩]⟩,
   ⟨0x800108, 0x10000, 8, 0x0, 1, [⟨⟨0, 32⟩, .ro, 0⟩]⟩,
   ⟨0x80010c, 0x10000, 8, 0x0, 1, [⟨⟨0, 32⟩, .ro, 0⟩]⟩,
   ⟨0x800110, 0x10000, 8, 0x0, 1, [⟨⟨0, 32⟩, .ro, 0⟩]⟩,
   ⟨0x800114, 0x10000, 8, 0x0, 1, [⟨⟨0, 32⟩, .ro, 0⟩]⟩,
   ⟨0x800118, 0x10000, 8, 0x0, 1, [⟨⟨0, 32⟩, .ro, 0⟩]⟩,
   ⟨0x800200, 0x10000, 8, 0x0, 1, [⟨⟨0, 10⟩, .rw, 0⟩, ⟨⟨31, 1⟩, .rw, 0⟩]⟩,
   ⟨0x800204, 0x10000, 8, 0x0, 1, [⟨⟨0, 1⟩, .wo, 0⟩, ⟨⟨1, 1⟩, .wo, 0⟩]⟩,
   ⟨0x800208, 0x10000, 8, 0x0, 1, [⟨⟨0, 1⟩, .w1c, 0⟩]⟩,
   ⟨0x800210, 0x10000, 8, 0x4, 4, [⟨⟨0, 1⟩, .rw, 0⟩, ⟨⟨5, 27⟩, .rw, 0⟩]⟩,
   ⟨0x800230, 0x10000, 8, 0x0, 1, [⟨⟨0, 32⟩, .rw, 0⟩]⟩,
   ⟨0x800234, 0x10000, 8, 0x0, 1, [⟨⟨0, 32⟩, .rw, 0⟩]⟩,
   ⟨0x800238, 0x10000, 8, 0x0, 1, [⟨⟨0, 32⟩, .ro, 0⟩]⟩,
   ⟨0x80023c, 0x10000, 8, 0x0, 1, [⟨⟨0, 32⟩, .ro, 0⟩]⟩,
   ⟨0x800240, 0x10000, 8, 0x0, 1, [⟨⟨0, 32⟩, .rw, 16777216⟩]⟩,
   ⟨0x800300, 0x10000, 8, 0x0, 1, [⟨⟨0, 1⟩, .rw, 0⟩, ⟨⟨1, 1⟩, .rw, 0⟩, ⟨⟨8, 8⟩, .rw, 0⟩, ⟨⟨16, 5⟩, .rw, 0⟩]⟩,
   ⟨0x800304, 0x10000, 8, 0x0, 1, [⟨⟨0, 32⟩, .rw, 0⟩]⟩,
   ⟨0x800308, 0x10000, 8, 0x0, 1, [⟨⟨0, 16⟩, .rw, 0⟩]⟩]

/-- The CCn registers, from the register tables of chapter 3, 4, 6. -/
def regTable.CCn1 : List RegRow :=
  [⟨0x80030c, 0x10000, 8, 0x0, 1, [⟨⟨0, 32⟩, .rw, 0⟩]⟩,
   ⟨0x800310, 0x10000, 8, 0x0, 1, [⟨⟨0, 32⟩, .ro, 0⟩]⟩,
   ⟨0x800314, 0x10000, 8, 0x0, 1, [⟨⟨0, 32⟩, .rw, 0⟩]⟩,
   ⟨0x800318, 0x10000, 8, 0x0, 1, [⟨⟨0, 32⟩, .rc, 0⟩]⟩,
   ⟨0x80031c, 0x10000, 8, 0x0, 1, [⟨⟨0, 12⟩, .rw, 0⟩, ⟨⟨12, 2⟩, .rw, 0⟩]⟩,
   ⟨0x800320, 0x10000, 8, 0x0, 1, [⟨⟨0, 32⟩, .ro, 0⟩]⟩,
   ⟨0x800400, 0x10000, 8, 0x0, 1, [⟨⟨0, 10⟩, .ro, 0⟩, ⟨⟨10, 7⟩, .ro, 0⟩, ⟨⟨17, 1⟩, .ro, 0⟩, ⟨⟨18, 1⟩, .ro, 0⟩, ⟨⟨19, 1⟩, .ro, 0⟩]⟩,
   ⟨0x800404, 0x10000, 8, 0x0, 1, [⟨⟨0, 32⟩, .ro, 0⟩]⟩,
   ⟨0x800408, 0x10000, 8, 0x0, 1, [⟨⟨0, 8⟩, .ro, 0⟩, ⟨⟨8, 12⟩, .ro, 0⟩]⟩,
   ⟨0x80040c, 0x10000, 8, 0x0, 1, [⟨⟨0, 24⟩, .ro, 0⟩]⟩,
   ⟨0x800410, 0x10000, 8, 0x0, 1, [⟨⟨0, 32⟩, .ro, 0⟩]⟩,
   ⟨0x800414, 0x10000, 8, 0x0, 1, [⟨⟨0, 16⟩, .ro, 0⟩]⟩,
   ⟨0x800418, 0x10000, 8, 0x0, 1, [⟨⟨0, 32⟩, .ro, 0⟩]⟩,
   ⟨0x800440, 0x10000, 8, 0x0, 1, [⟨⟨0, 20⟩, .rw, 0⟩]⟩,
   ⟨0x800444, 0x10000, 8, 0x0, 1, [⟨⟨0, 25⟩, .rw, 131072⟩]⟩,
   ⟨0x800448, 0x10000, 8, 0x0, 1, [⟨⟨0, 25⟩, .ro, 131072⟩]⟩,
   ⟨0x80044c, 0x10000, 8, 0x0, 1, [⟨⟨0, 32⟩, .rc, 0⟩]⟩]

/-- The MC registers, from the register tables of chapter 6. -/
def regTable.MC : List RegRow :=
  [⟨0x700000, 0x0, 1, 0x0, 1, [⟨⟨0, 2⟩, .ro, 0⟩, ⟨⟨8, 8⟩, .ro, 0⟩]⟩,
   ⟨0x700004, 0x0, 1, 0x0, 1, [⟨⟨0, 1⟩, .ro, 0⟩, ⟨⟨1, 1⟩, .ro, 0⟩]⟩,
   ⟨0x700010, 0x0, 1, 0x0, 1, [⟨⟨0, 4⟩, .rw, 1⟩, ⟨⟨4, 4⟩, .rw, 3⟩]⟩,
   ⟨0x700020, 0x0, 1, 0x0, 1, [⟨⟨0, 32⟩, .ro, 0⟩]⟩,
   ⟨0x700024, 0x0, 1, 0x0, 1, [⟨⟨0, 32⟩, .ro, 0⟩]⟩,
   ⟨0x700028, 0x0, 1, 0x0, 1, [⟨⟨0, 32⟩, .ro, 0⟩]⟩,
   ⟨0x70002c, 0x0, 1, 0x0, 1, [⟨⟨0, 32⟩, .ro, 0⟩]⟩,
   ⟨0x700100, 0x0, 1, 0x0, 1, [⟨⟨0, 10⟩, .rw, 0⟩]⟩,
   ⟨0x700104, 0x0, 1, 0x0, 1, [⟨⟨0, 20⟩, .rw, 0⟩]⟩,
   ⟨0x700108, 0x0, 1, 0x0, 1, [⟨⟨0, 25⟩, .rw, 131072⟩]⟩,
   ⟨0x70010c, 0x0, 1, 0x0, 1, [⟨⟨0, 25⟩, .ro, 131072⟩]⟩,
   ⟨0x700110, 0x0, 1, 0x0, 1, [⟨⟨0, 1⟩, .w1c, 0⟩]⟩]

/-- The CAM registers, from the register tables of chapter 8. -/
def regTable.CAM : List RegRow :=
  [⟨0x200000, 0x40, 12, 0x0, 1, [⟨⟨0, 3⟩, .rws, 0⟩, ⟨⟨3, 2⟩, .rws, 0⟩, ⟨⟨5, 1⟩, .rws, 0⟩, ⟨⟨16, 13⟩, .rws, 0⟩]⟩,
   ⟨0x200004, 0x40, 12, 0x0, 1, [⟨⟨0, 1⟩, .ro, 0⟩, ⟨⟨1, 1⟩, .ro, 0⟩, ⟨⟨2, 1⟩, .ro, 0⟩]⟩,
   ⟨0x200008, 0x40, 12, 0x0, 1, [⟨⟨0, 32⟩, .rc, 0⟩]⟩,
   ⟨0x20000c, 0x40, 12, 0x0, 1, [⟨⟨0, 32⟩, .rc, 0⟩]⟩,
   ⟨0x200010, 0x40, 12, 0x0, 1, [⟨⟨0, 32⟩, .rc, 0⟩]⟩,
   ⟨0x200014, 0x40, 12, 0x0, 1, [⟨⟨0, 32⟩, .rc, 0⟩]⟩,
   ⟨0x200400, 0x20, 12, 0x0, 1, [⟨⟨0, 2⟩, .rws, 0⟩]⟩,
   ⟨0x200404, 0x20, 12, 0x0, 1, [⟨⟨0, 7⟩, .wo, 0⟩, ⟨⟨7, 1⟩, .wo, 0⟩, ⟨⟨8, 2⟩, .wo, 0⟩, ⟨⟨16, 16⟩, .wo, 0⟩]⟩,
   ⟨0x200408, 0x20, 12, 0x0, 1, [⟨⟨0, 32⟩, .rw, 0⟩]⟩,
   ⟨0x20040c, 0x20, 12, 0x0, 1, [⟨⟨0, 1⟩, .ro, 0⟩, ⟨⟨1, 1⟩, .ro, 0⟩, ⟨⟨2, 1⟩, .w1c, 0⟩]⟩,
   ⟨0x200410, 0x20, 12, 0x0, 1, [⟨⟨0, 32⟩, .rc, 0⟩]⟩,
   ⟨0x200414, 0x20, 12, 0x0, 1, [⟨⟨0, 32⟩, .rc, 0⟩]⟩,
   ⟨0x201000, 0x40, 32, 0x0, 1, [⟨⟨0, 1⟩, .rws, 0⟩]⟩,
   ⟨0x201004, 0x40, 32, 0x0, 1, [⟨⟨0, 32⟩, .rws, 0⟩]⟩,
   ⟨0x201008, 0x40, 32, 0x0, 1, [⟨⟨0, 16⟩, .rws, 0⟩]⟩,
   ⟨0x20100c, 0x40, 32, 0x0, 1, [⟨⟨0, 2⟩, .ro, 0⟩, ⟨⟨2, 1⟩, .w1c, 0⟩]⟩,
   ⟨0x201010, 0x40, 32, 0x0, 1, [⟨⟨0, 32⟩, .ro, 0⟩]⟩,
   ⟨0x201014, 0x40, 32, 0x0, 1, [⟨⟨0, 32⟩, .ro, 0⟩]⟩,
   ⟨0x201018, 0x40, 32, 0x0, 1, [⟨⟨0, 32⟩, .ro, 0⟩]⟩,
   ⟨0x20101c, 0x40, 32, 0x0, 1, [⟨⟨0, 16⟩, .ro, 0⟩]⟩,
   ⟨0x201020, 0x40, 32, 0x0, 1, [⟨⟨0, 32⟩, .rc, 0⟩]⟩,
   ⟨0x201024, 0x40, 32, 0x0, 1, [⟨⟨0, 32⟩, .rc, 0⟩]⟩,
   ⟨0x201028, 0x40, 32, 0x0, 1, [⟨⟨0, 32⟩, .rc, 0⟩]⟩,
   ⟨0x202000, 0x0, 1, 0x0, 1, [⟨⟨0, 32⟩, .w1c, 0⟩]⟩,
   ⟨0x202004, 0x0, 1, 0x0, 1, [⟨⟨0, 32⟩, .w1c, 0⟩]⟩]

/-- The ISPm registers, from the register tables of chapter 8. -/
def regTable.ISPm : List RegRow :=
  [⟨0x300000, 0x100, 4, 0x0, 1, [⟨⟨0, 4⟩, .ro, 0⟩, ⟨⟨4, 1⟩, .ro, 0⟩]⟩,
   ⟨0x300004, 0x100, 4, 0x0, 1, [⟨⟨0, 32⟩, .ro, 0⟩]⟩,
   ⟨0x300008, 0x100, 4, 0x0, 1, [⟨⟨0, 32⟩, .ro, 0⟩]⟩,
   ⟨0x30000c, 0x100, 4, 0x0, 1, [⟨⟨0, 32⟩, .rc, 0⟩]⟩,
   ⟨0x300010, 0x100, 4, 0x0, 1, [⟨⟨0, 32⟩, .rws, 0⟩]⟩,
   ⟨0x300014, 0x100, 4, 0x0, 1, [⟨⟨0, 16⟩, .rws, 0⟩]⟩,
   ⟨0x300018, 0x100, 4, 0x0, 1, [⟨⟨0, 32⟩, .rws, 0⟩]⟩,
   ⟨0x30001c, 0x100, 4, 0x0, 1, [⟨⟨0, 16⟩, .rws, 0⟩]⟩,
   ⟨0x300020, 0x100, 4, 0x0, 1, [⟨⟨0, 32⟩, .ro, 0⟩]⟩]

/-- The VID registers, from the register tables of chapter 9. -/
def regTable.VID : List RegRow :=
  [⟨0x500000, 0x40, 64, 0x0, 1, [⟨⟨0, 1⟩, .rws, 0⟩]⟩,
   ⟨0x500004, 0x40, 64, 0x0, 1, [⟨⟨0, 32⟩, .rws, 0⟩]⟩,
   ⟨0x500008, 0x40, 64, 0x0, 1, [⟨⟨0, 16⟩, .rws, 0⟩]⟩,
   ⟨0x50000c, 0x40, 64, 0x0, 1, [⟨⟨0, 2⟩, .ro, 0⟩]⟩,
   ⟨0x500010, 0x40, 64, 0x0, 1, [⟨⟨0, 32⟩, .ro, 0⟩]⟩,
   ⟨0x500014, 0x40, 64, 0x0, 1, [⟨⟨0, 32⟩, .ro, 0⟩]⟩,
   ⟨0x500018, 0x40, 64, 0x0, 1, [⟨⟨0, 32⟩, .rc, 0⟩]⟩,
   ⟨0x50001c, 0x40, 64, 0x0, 1, [⟨⟨0, 32⟩, .rc, 0⟩]⟩,
   ⟨0x501000, 0x40, 16, 0x0, 1, [⟨⟨0, 1⟩, .rws, 0⟩]⟩,
   ⟨0x501004, 0x40, 16, 0x0, 1, [⟨⟨0, 32⟩, .rws, 0⟩]⟩,
   ⟨0x501008, 0x40, 16, 0x0, 1, [⟨⟨0, 16⟩, .rws, 0⟩]⟩,
   ⟨0x50100c, 0x40, 16, 0x0, 1, [⟨⟨0, 2⟩, .ro, 0⟩]⟩,
   ⟨0x501010, 0x40, 16, 0x0, 1, [⟨⟨0, 32⟩, .ro, 0⟩]⟩,
   ⟨0x501014, 0x40, 16, 0x0, 1, [⟨⟨0, 32⟩, .ro, 0⟩]⟩,
   ⟨0x502000, 0x10, 3, 0x0, 1, [⟨⟨0, 32⟩, .ro, 0⟩]⟩,
   ⟨0x502004, 0x10, 3, 0x0, 1, [⟨⟨0, 32⟩, .ro, 0⟩]⟩]

/-- The TAU registers, from the register tables of chapter 9. -/
def regTable.TAU : List RegRow :=
  [⟨0x400000, 0x40, 64, 0x0, 1, [⟨⟨0, 1⟩, .rws, 0⟩]⟩,
   ⟨0x400004, 0x40, 64, 0x0, 1, [⟨⟨0, 32⟩, .rws, 0⟩]⟩,
   ⟨0x400008, 0x40, 64, 0x0, 1, [⟨⟨0, 16⟩, .rws, 0⟩]⟩,
   ⟨0x40000c, 0x40, 64, 0x0, 1, [⟨⟨0, 2⟩, .ro, 0⟩, ⟨⟨2, 1⟩, .ro, 0⟩]⟩,
   ⟨0x400010, 0x40, 64, 0x0, 1, [⟨⟨0, 32⟩, .ro, 0⟩]⟩,
   ⟨0x400014, 0x40, 64, 0x0, 1, [⟨⟨0, 32⟩, .ro, 0⟩]⟩,
   ⟨0x400018, 0x40, 64, 0x0, 1, [⟨⟨0, 32⟩, .rc, 0⟩]⟩,
   ⟨0x40001c, 0x40, 64, 0x0, 1, [⟨⟨0, 32⟩, .rc, 0⟩]⟩,
   ⟨0x401000, 0x0, 1, 0x0, 1, [⟨⟨0, 1⟩, .ro, 0⟩, ⟨⟨8, 6⟩, .ro, 0⟩]⟩,
   ⟨0x401008, 0x0, 1, 0x0, 1, [⟨⟨0, 32⟩, .ro, 0⟩]⟩,
   ⟨0x40100c, 0x0, 1, 0x0, 1, [⟨⟨0, 32⟩, .ro, 0⟩]⟩]

/-- The HPx registers, from the register tables of chapter 10. -/
def regTable.HPx : List RegRow :=
  [⟨0x80000, 0x10000, 2, 0x0, 1, [⟨⟨0, 3⟩, .ro, 0⟩, ⟨⟨3, 1⟩, .w1c, 0⟩]⟩,
   ⟨0x80004, 0x10000, 2, 0x0, 1, [⟨⟨0, 16⟩, .ro, 0⟩]⟩,
   ⟨0x80008, 0x10000, 2, 0x0, 1, [⟨⟨0, 16⟩, .wo, 0⟩, ⟨⟨16, 2⟩, .wo, 0⟩]⟩,
   ⟨0x8000c, 0x10000, 2, 0x0, 1, [⟨⟨0, 8⟩, .ro, 0⟩]⟩,
   ⟨0x80010, 0x10000, 2, 0x0, 1, [⟨⟨0, 32⟩, .wo, 0⟩]⟩,
   ⟨0x80014, 0x10000, 2, 0x0, 1, [⟨⟨0, 10⟩, .rw, 100⟩]⟩,
   ⟨0x80018, 0x10000, 2, 0x0, 1, [⟨⟨0, 32⟩, .ro, 0⟩]⟩,
   ⟨0x80020, 0x10000, 2, 0x0, 1, [⟨⟨21, 11⟩, .rw, 0⟩]⟩,
   ⟨0x80024, 0x10000, 2, 0x0, 1, [⟨⟨0, 16⟩, .rw, 0⟩]⟩,
   ⟨0x80030, 0x10000, 2, 0x0, 1, [⟨⟨0, 32⟩, .rw, 0⟩]⟩,
   ⟨0x80034, 0x10000, 2, 0x0, 1, [⟨⟨0, 16⟩, .rw, 0⟩]⟩,
   ⟨0x80038, 0x10000, 2, 0x0, 1, [⟨⟨0, 32⟩, .rw, 0⟩]⟩,
   ⟨0x8003c, 0x10000, 2, 0x0, 1, [⟨⟨0, 16⟩, .rw, 0⟩]⟩,
   ⟨0x80040, 0x10000, 2, 0x0, 1, [⟨⟨0, 5⟩, .rw, 0⟩, ⟨⟨8, 5⟩, .rw, 0⟩]⟩,
   ⟨0x80050, 0x10000, 2, 0x0, 1, [⟨⟨0, 1⟩, .w1c, 0⟩, ⟨⟨1, 1⟩, .w1c, 0⟩, ⟨⟨2, 1⟩, .w1c, 0⟩, ⟨⟨3, 1⟩, .w1c, 0⟩, ⟨⟨4, 1⟩, .w1c, 0⟩]⟩,
   ⟨0x80054, 0x10000, 2, 0x0, 1, [⟨⟨0, 5⟩, .rw, 0⟩]⟩,
   ⟨0x80058, 0x10000, 2, 0x0, 1, [⟨⟨0, 16⟩, .ro, 0⟩, ⟨⟨16, 3⟩, .ro, 0⟩]⟩,
   ⟨0x8005c, 0x10000, 2, 0x0, 1, [⟨⟨0, 32⟩, .rc, 0⟩]⟩,
   ⟨0x80060, 0x10000, 2, 0x0, 1, [⟨⟨0, 32⟩, .wo, 0⟩]⟩]

/-- The SEMn registers, from the register tables of chapter 10. -/
def regTable.SEMn : List RegRow :=
  [⟨0x10000, 0x4, 64, 0x0, 1, [⟨⟨0, 1⟩, .rw, 0⟩, ⟨⟨1, 1⟩, .ro, 0⟩]⟩]

/-- The SEM registers, from the register tables of chapter 10. -/
def regTable.SEM : List RegRow :=
  [⟨0x10100, 0x0, 1, 0x0, 1, [⟨⟨0, 32⟩, .ro, 0⟩]⟩,
   ⟨0x10104, 0x0, 1, 0x0, 1, [⟨⟨0, 32⟩, .ro, 0⟩]⟩,
   ⟨0x10108, 0x0, 1, 0x0, 1, [⟨⟨0, 32⟩, .ro, 0⟩]⟩,
   ⟨0x1010c, 0x0, 1, 0x0, 1, [⟨⟨0, 32⟩, .ro, 0⟩]⟩,
   ⟨0x10110, 0x0, 1, 0x0, 1, [⟨⟨0, 32⟩, .ro, 4294967295⟩]⟩,
   ⟨0x10114, 0x0, 1, 0x0, 1, [⟨⟨0, 32⟩, .ro, 4294967295⟩]⟩]

/-- The QM registers, from the register tables of chapter 10. -/
def regTable.QM : List RegRow :=
  [⟨0x100000, 0x0, 1, 0x0, 1, [⟨⟨0, 17⟩, .ro, 2⟩, ⟨⟨17, 11⟩, .ro, 0⟩]⟩,
   ⟨0x100004, 0x0, 1, 0x0, 1, [⟨⟨0, 32⟩, .rc, 0⟩]⟩,
   ⟨0x100008, 0x0, 1, 0x0, 1, [⟨⟨0, 18⟩, .wo, 0⟩]⟩,
   ⟨0x10000c, 0x0, 1, 0x0, 1, [⟨⟨0, 18⟩, .wo, 0⟩]⟩,
   ⟨0x100100, 0x0, 1, 0x0, 1, [⟨⟨0, 13⟩, .rw, 0⟩]⟩,
   ⟨0x100104, 0x0, 1, 0x0, 1, [⟨⟨0, 32⟩, .ro, 0⟩]⟩,
   ⟨0x100110, 0x0, 1, 0x0, 1, [⟨⟨0, 16⟩, .rw, 0⟩, ⟨⟨16, 4⟩, .rw, 0⟩]⟩,
   ⟨0x100114, 0x0, 1, 0x0, 1, [⟨⟨0, 2⟩, .ro, 0⟩]⟩,
   ⟨0x100120, 0x0, 1, 0x0, 1, [⟨⟨0, 16⟩, .rw, 0⟩]⟩,
   ⟨0x100124, 0x0, 1, 0x0, 1, [⟨⟨0, 3⟩, .ro, 0⟩, ⟨⟨3, 1⟩, .ro, 0⟩, ⟨⟨4, 1⟩, .ro, 0⟩, ⟨⟨16, 11⟩, .ro, 0⟩]⟩,
   ⟨0x100128, 0x0, 1, 0x0, 1, [⟨⟨0, 32⟩, .ro, 0⟩]⟩,
   ⟨0x10012c, 0x0, 1, 0x0, 1, [⟨⟨0, 32⟩, .ro, 0⟩]⟩,
   ⟨0x100130, 0x0, 1, 0x0, 1, [⟨⟨0, 32⟩, .ro, 0⟩]⟩,
   ⟨0x100134, 0x0, 1, 0x0, 1, [⟨⟨0, 32⟩, .ro, 0⟩]⟩,
   ⟨0x100138, 0x0, 1, 0x0, 1, [⟨⟨0, 16⟩, .ro, 0⟩]⟩]

/-- The STC registers, from the register tables of chapter 11, 16. -/
def regTable.STC : List RegRow :=
  [⟨0x40800, 0x4, 8, 0x0, 1, [⟨⟨0, 2⟩, .ro, 0⟩, ⟨⟨2, 2⟩, .ro, 0⟩, ⟨⟨4, 2⟩, .ro, 0⟩, ⟨⟨6, 2⟩, .ro, 0⟩, ⟨⟨8, 2⟩, .ro, 0⟩, ⟨⟨10, 2⟩, .ro, 0⟩, ⟨⟨12, 3⟩, .ro, 0⟩, ⟨⟨16, 7⟩, .ro, 0⟩]⟩,
   ⟨0x40820, 0x0, 1, 0x0, 1, [⟨⟨0, 6⟩, .ro, 0⟩, ⟨⟨6, 6⟩, .ro, 0⟩, ⟨⟨12, 1⟩, .ro, 0⟩, ⟨⟨13, 1⟩, .ro, 0⟩, ⟨⟨14, 1⟩, .w1c, 0⟩]⟩,
   ⟨0x40824, 0x0, 1, 0x0, 1, [⟨⟨0, 32⟩, .ro, 0⟩]⟩,
   ⟨0x40828, 0x0, 1, 0x0, 1, [⟨⟨0, 32⟩, .ro, 0⟩]⟩,
   ⟨0x4082c, 0x0, 1, 0x0, 1, [⟨⟨0, 32⟩, .ro, 0⟩]⟩,
   ⟨0x40830, 0x0, 1, 0x0, 1, [⟨⟨0, 32⟩, .ro, 0⟩]⟩,
   ⟨0x40840, 0x0, 1, 0x0, 1, [⟨⟨0, 32⟩, .ro, 0⟩]⟩,
   ⟨0x40844, 0x0, 1, 0x0, 1, [⟨⟨0, 8⟩, .rw, 0⟩, ⟨⟨8, 3⟩, .rw, 0⟩]⟩,
   ⟨0x40848, 0x0, 1, 0x0, 1, [⟨⟨0, 32⟩, .ro, 0⟩]⟩,
   ⟨0x40850, 0x0, 1, 0x0, 1, [⟨⟨0, 1⟩, .rw, 1⟩]⟩,
   ⟨0x40854, 0x0, 1, 0x0, 1, [⟨⟨0, 6⟩, .rw, 0⟩]⟩,
   ⟨0x40858, 0x0, 1, 0x0, 1, [⟨⟨0, 2⟩, .ro, 0⟩, ⟨⟨2, 1⟩, .ro, 0⟩, ⟨⟨16, 16⟩, .ro, 65535⟩]⟩,
   ⟨0x4085c, 0x0, 1, 0x0, 1, [⟨⟨0, 16⟩, .ro, 0⟩, ⟨⟨16, 16⟩, .ro, 0⟩]⟩,
   ⟨0x40860, 0x0, 1, 0x0, 1, [⟨⟨0, 16⟩, .ro, 0⟩]⟩,
   ⟨0x40864, 0x0, 1, 0x0, 1, [⟨⟨0, 32⟩, .ro, 0⟩]⟩,
   ⟨0x40868, 0x0, 1, 0x0, 1, [⟨⟨0, 32⟩, .ro, 0⟩]⟩,
   ⟨0x4086c, 0x0, 1, 0x0, 1, [⟨⟨0, 32⟩, .rc, 0⟩]⟩,
   ⟨0x40000, 0x0, 1, 0x0, 1, [⟨⟨0, 2⟩, .ro, 0⟩, ⟨⟨2, 2⟩, .ro, 0⟩, ⟨⟨4, 4⟩, .ro, 0⟩, ⟨⟨8, 2⟩, .ro, 0⟩, ⟨⟨10, 4⟩, .ro, 0⟩]⟩,
   ⟨0x40004, 0x0, 1, 0x0, 1, [⟨⟨0, 1⟩, .ro, 0⟩, ⟨⟨1, 1⟩, .ro, 0⟩, ⟨⟨2, 1⟩, .ro, 0⟩, ⟨⟨3, 1⟩, .ro, 0⟩, ⟨⟨4, 1⟩, .ro, 0⟩, ⟨⟨5, 1⟩, .ro, 0⟩]⟩,
   ⟨0x40008, 0x0, 1, 0x0, 1, [⟨⟨0, 3⟩, .ro, 0⟩, ⟨⟨3, 2⟩, .ro, 0⟩, ⟨⟨5, 1⟩, .ro, 0⟩]⟩,
   ⟨0x4000c, 0x0, 1, 0x0, 1, [⟨⟨0, 8⟩, .ro, 0⟩, ⟨⟨8, 8⟩, .ro, 0⟩, ⟨⟨16, 1⟩, .ro, 0⟩]⟩,
   ⟨0x40010, 0x0, 1, 0x0, 1, [⟨⟨0, 1⟩, .ro, 0⟩]⟩]

/-- The PM registers, from the register tables of chapter 12. -/
def regTable.PM : List RegRow :=
  [⟨0x20000, 0x0, 1, 0x0, 1, [⟨⟨0, 2⟩, .rws, 0⟩, ⟨⟨2, 4⟩, .rws, 0⟩, ⟨⟨6, 4⟩, .rws, 4⟩, ⟨⟨10, 1⟩, .rws, 1⟩]⟩,
   ⟨0x20004, 0x0, 1, 0x0, 1, [⟨⟨0, 10⟩, .rws, 760⟩]⟩,
   ⟨0x20008, 0x0, 1, 0x0, 1, [⟨⟨0, 8⟩, .rws, 48⟩, ⟨⟨8, 8⟩, .rws, 32⟩, ⟨⟨16, 8⟩, .rws, 40⟩]⟩,
   ⟨0x2000c, 0x0, 1, 0x0, 1, [⟨⟨0, 8⟩, .rws, 100⟩, ⟨⟨8, 8⟩, .rws, 108⟩]⟩,
   ⟨0x20010, 0x0, 1, 0x0, 1, [⟨⟨0, 16⟩, .rws, 0⟩]⟩,
   ⟨0x20020, 0x0, 1, 0x0, 1, [⟨⟨0, 4⟩, .ro, 0⟩, ⟨⟨4, 4⟩, .ro, 0⟩, ⟨⟨8, 2⟩, .ro, 0⟩, ⟨⟨10, 2⟩, .ro, 0⟩, ⟨⟨12, 1⟩, .ro, 0⟩, ⟨⟨13, 1⟩, .ro, 0⟩, ⟨⟨14, 1⟩, .ro, 0⟩, ⟨⟨15, 4⟩, .ro, 0⟩, ⟨⟨19, 2⟩, .ro, 0⟩]⟩,
   ⟨0x20024, 0x0, 1, 0x0, 1, [⟨⟨0, 1⟩, .w1c, 0⟩, ⟨⟨1, 1⟩, .w1c, 0⟩, ⟨⟨2, 1⟩, .w1c, 0⟩, ⟨⟨3, 1⟩, .w1c, 0⟩, ⟨⟨4, 1⟩, .w1c, 0⟩, ⟨⟨5, 1⟩, .w1c, 0⟩, ⟨⟨6, 1⟩, .w1c, 0⟩, ⟨⟨7, 1⟩, .w1c, 0⟩, ⟨⟨8, 1⟩, .w1c, 0⟩]⟩,
   ⟨0x20028, 0x0, 1, 0x0, 1, [⟨⟨0, 16⟩, .ro, 0⟩, ⟨⟨16, 16⟩, .ro, 0⟩]⟩,
   ⟨0x2002c, 0x0, 1, 0x0, 1, [⟨⟨0, 16⟩, .ro, 0⟩, ⟨⟨16, 16⟩, .ro, 0⟩]⟩,
   ⟨0x20030, 0x0, 1, 0x0, 1, [⟨⟨0, 16⟩, .ro, 0⟩, ⟨⟨16, 16⟩, .ro, 0⟩]⟩,
   ⟨0x20034, 0x0, 1, 0x0, 1, [⟨⟨0, 16⟩, .ro, 4096⟩]⟩,
   ⟨0x20038, 0x0, 1, 0x0, 1, [⟨⟨0, 16⟩, .ro, 0⟩, ⟨⟨16, 5⟩, .ro, 0⟩]⟩,
   ⟨0x2003c, 0x0, 1, 0x0, 1, [⟨⟨0, 1⟩, .wo, 0⟩]⟩,
   ⟨0x20040, 0x0, 1, 0x0, 1, [⟨⟨0, 32⟩, .rc, 0⟩]⟩,
   ⟨0x20044, 0x0, 1, 0x0, 1, [⟨⟨0, 32⟩, .rc, 0⟩]⟩,
   ⟨0x20048, 0x0, 1, 0x0, 1, [⟨⟨0, 32⟩, .ro, 0⟩]⟩,
   ⟨0x2004c, 0x0, 1, 0x0, 1, [⟨⟨0, 32⟩, .ro, 0⟩]⟩,
   ⟨0x20050, 0x0, 1, 0x0, 1, [⟨⟨0, 2⟩, .ro, 0⟩, ⟨⟨2, 1⟩, .ro, 0⟩]⟩,
   ⟨0x20054, 0x0, 1, 0x0, 1, [⟨⟨0, 32⟩, .ro, 0⟩]⟩,
   ⟨0x20058, 0x0, 1, 0x0, 1, [⟨⟨0, 32⟩, .ro, 0⟩]⟩,
   ⟨0x20060, 0x0, 1, 0x0, 1, [⟨⟨0, 1⟩, .rw, 1⟩, ⟨⟨1, 1⟩, .wo, 0⟩, ⟨⟨2, 1⟩, .wo, 0⟩, ⟨⟨16, 16⟩, .rw, 1000⟩]⟩,
   ⟨0x20070, 0x0, 1, 0x0, 1, [⟨⟨0, 10⟩, .rw, 0⟩, ⟨⟨16, 8⟩, .rw, 0⟩]⟩,
   ⟨0x20074, 0x0, 1, 0x0, 1, [⟨⟨0, 16⟩, .ro, 0⟩, ⟨⟨16, 1⟩, .ro, 0⟩]⟩,
   ⟨0x20100, 0x8, 8, 0x0, 1, [⟨⟨0, 1⟩, .rws, 0⟩, ⟨⟨1, 4⟩, .rws, 0⟩, ⟨⟨5, 7⟩, .rws, 0⟩, ⟨⟨12, 1⟩, .rws, 0⟩]⟩,
   ⟨0x20104, 0x8, 8, 0x0, 1, [⟨⟨0, 16⟩, .ro, 0⟩, ⟨⟨16, 16⟩, .ro, 0⟩]⟩,
   ⟨0x20140, 0x0, 1, 0x0, 1, [⟨⟨0, 8⟩, .ro, 0⟩, ⟨⟨8, 8⟩, .ro, 0⟩]⟩]

/-- The CPS registers, from the register tables of chapter 13. -/
def regTable.CPS : List RegRow :=
  [⟨0x30000, 0x0, 1, 0x0, 1, [⟨⟨0, 32⟩, .ro, 0⟩]⟩,
   ⟨0x30004, 0x0, 1, 0x0, 1, [⟨⟨0, 32⟩, .ro, 0⟩]⟩,
   ⟨0x30008, 0x0, 1, 0x0, 1, [⟨⟨0, 1⟩, .ro, 0⟩, ⟨⟨1, 2⟩, .ro, 0⟩, ⟨⟨3, 1⟩, .ro, 0⟩, ⟨⟨4, 1⟩, .ro, 0⟩]⟩,
   ⟨0x3000c, 0x0, 1, 0x0, 1, [⟨⟨0, 1⟩, .w1c, 0⟩, ⟨⟨1, 1⟩, .w1c, 0⟩, ⟨⟨2, 1⟩, .w1c, 0⟩, ⟨⟨3, 1⟩, .w1c, 0⟩, ⟨⟨4, 1⟩, .w1c, 0⟩, ⟨⟨5, 1⟩, .w1c, 0⟩, ⟨⟨6, 1⟩, .w1c, 0⟩]⟩,
   ⟨0x30010, 0x0, 1, 0x0, 1, [⟨⟨0, 1⟩, .rws, 0⟩, ⟨⟨1, 1⟩, .rws, 1⟩, ⟨⟨2, 5⟩, .rws, 3⟩, ⟨⟨7, 5⟩, .rws, 30⟩, ⟨⟨12, 9⟩, .rws, 100⟩]⟩,
   ⟨0x30014, 0x0, 1, 0x0, 1, [⟨⟨0, 16⟩, .rws, 100⟩, ⟨⟨16, 16⟩, .rws, 1000⟩]⟩,
   ⟨0x30018, 0x0, 1, 0x0, 1, [⟨⟨0, 32⟩, .rw, 0⟩]⟩,
   ⟨0x3001c, 0x0, 1, 0x0, 1, [⟨⟨0, 32⟩, .ro, 0⟩]⟩,
   ⟨0x30020, 0x0, 1, 0x0, 1, [⟨⟨0, 32⟩, .wo, 0⟩]⟩,
   ⟨0x30024, 0x0, 1, 0x0, 1, [⟨⟨0, 32⟩, .wo, 0⟩]⟩,
   ⟨0x30028, 0x0, 1, 0x0, 1, [⟨⟨0, 2⟩, .wo, 0⟩]⟩,
   ⟨0x3002c, 0x0, 1, 0x0, 1, [⟨⟨0, 32⟩, .ro, 0⟩]⟩,
   ⟨0x30030, 0x0, 1, 0x0, 1, [⟨⟨0, 32⟩, .ro, 0⟩]⟩,
   ⟨0x30034, 0x0, 1, 0x0, 1, [⟨⟨0, 32⟩, .rc, 0⟩]⟩,
   ⟨0x30100, 0x20, 24, 0x0, 1, [⟨⟨0, 1⟩, .rws, 0⟩, ⟨⟨1, 1⟩, .rws, 0⟩]⟩,
   ⟨0x30104, 0x20, 24, 0x0, 1, [⟨⟨0, 32⟩, .rws, 0⟩]⟩,
   ⟨0x30108, 0x20, 24, 0x0, 1, [⟨⟨0, 32⟩, .rws, 0⟩]⟩,
   ⟨0x3010c, 0x20, 24, 0x0, 1, [⟨⟨0, 32⟩, .rws, 33333333⟩]⟩,
   ⟨0x30110, 0x20, 24, 0x0, 1, [⟨⟨0, 32⟩, .rws, 10000⟩]⟩,
   ⟨0x30114, 0x20, 24, 0x0, 1, [⟨⟨0, 32⟩, .ro, 0⟩]⟩,
   ⟨0x30400, 0x0, 1, 0x0, 1, [⟨⟨0, 1⟩, .rws, 0⟩, ⟨⟨1, 9⟩, .rws, 100⟩]⟩,
   ⟨0x30404, 0x0, 1, 0x0, 1, [⟨⟨0, 1⟩, .rws, 0⟩, ⟨⟨1, 2⟩, .rws, 1⟩]⟩,
   ⟨0x30500, 0x10, 8, 0x0, 1, [⟨⟨0, 1⟩, .rw, 0⟩, ⟨⟨1, 2⟩, .rw, 0⟩]⟩,
   ⟨0x30580, 0x0, 1, 0x0, 1, [⟨⟨0, 1⟩, .ro, 1⟩, ⟨⟨1, 2⟩, .ro, 0⟩]⟩,
   ⟨0x30504, 0x10, 9, 0x0, 1, [⟨⟨0, 32⟩, .ro, 0⟩]⟩,
   ⟨0x30508, 0x10, 9, 0x0, 1, [⟨⟨0, 32⟩, .ro, 0⟩]⟩,
   ⟨0x3050c, 0x10, 9, 0x0, 1, [⟨⟨0, 3⟩, .ro, 0⟩, ⟨⟨3, 1⟩, .ro, 0⟩, ⟨⟨4, 1⟩, .ro, 1⟩, ⟨⟨5, 7⟩, .ro, 0⟩, ⟨⟨16, 16⟩, .ro, 0⟩]⟩]

/-- The FAB registers, from the register tables of chapter 14. -/
def regTable.FAB : List RegRow :=
  [⟨0x600000, 0x0, 1, 0x0, 1, [⟨⟨0, 12⟩, .rws, 0⟩, ⟨⟨12, 8⟩, .rws, 0⟩, ⟨⟨20, 4⟩, .rws, 0⟩]⟩,
   ⟨0x600004, 0x0, 1, 0x0, 1, [⟨⟨0, 16⟩, .rws, 100⟩]⟩,
   ⟨0x600008, 0x0, 1, 0x0, 1, [⟨⟨0, 32⟩, .rws, 0⟩]⟩,
   ⟨0x60000c, 0x0, 1, 0x0, 1, [⟨⟨0, 16⟩, .rws, 0⟩]⟩,
   ⟨0x600010, 0x0, 1, 0x0, 1, [⟨⟨0, 18⟩, .rws, 0⟩]⟩,
   ⟨0x600014, 0x0, 1, 0x0, 1, [⟨⟨0, 19⟩, .rws, 0⟩]⟩,
   ⟨0x600020, 0x0, 1, 0x0, 1, [⟨⟨0, 12⟩, .ro, 0⟩, ⟨⟨12, 1⟩, .ro, 0⟩, ⟨⟨13, 1⟩, .ro, 0⟩, ⟨⟨14, 4⟩, .ro, 0⟩, ⟨⟨18, 2⟩, .ro, 0⟩, ⟨⟨20, 1⟩, .ro, 0⟩, ⟨⟨21, 1⟩, .ro, 0⟩]⟩,
   ⟨0x600024, 0x0, 1, 0x0, 1, [⟨⟨0, 1⟩, .w1c, 0⟩, ⟨⟨1, 1⟩, .w1c, 0⟩, ⟨⟨2, 1⟩, .w1c, 0⟩, ⟨⟨3, 1⟩, .w1c, 0⟩, ⟨⟨4, 1⟩, .w1c, 0⟩, ⟨⟨5, 1⟩, .w1c, 0⟩, ⟨⟨6, 1⟩, .w1c, 0⟩, ⟨⟨7, 1⟩, .w1c, 0⟩]⟩,
   ⟨0x600028, 0x0, 1, 0x0, 1, [⟨⟨0, 32⟩, .ro, 0⟩]⟩,
   ⟨0x60002c, 0x0, 1, 0x0, 1, [⟨⟨0, 32⟩, .ro, 0⟩]⟩,
   ⟨0x600030, 0x0, 1, 0x0, 1, [⟨⟨0, 32⟩, .rc, 0⟩]⟩,
   ⟨0x600034, 0x0, 1, 0x0, 1, [⟨⟨0, 32⟩, .rc, 0⟩]⟩,
   ⟨0x600040, 0x4, 8, 0x0, 1, [⟨⟨0, 32⟩, .ro, 0⟩]⟩,
   ⟨0x600060, 0x0, 1, 0x0, 1, [⟨⟨0, 8⟩, .wo, 0⟩]⟩,
   ⟨0x600100, 0x20, 4, 0x0, 1, [⟨⟨0, 2⟩, .ro, 0⟩, ⟨⟨2, 2⟩, .ro, 0⟩, ⟨⟨4, 1⟩, .ro, 0⟩, ⟨⟨5, 12⟩, .ro, 0⟩, ⟨⟨17, 1⟩, .ro, 0⟩]⟩,
   ⟨0x600104, 0x20, 4, 0x0, 1, [⟨⟨0, 32⟩, .rc, 0⟩]⟩,
   ⟨0x600108, 0x20, 4, 0x0, 1, [⟨⟨0, 32⟩, .rc, 0⟩]⟩,
   ⟨0x60010c, 0x20, 4, 0x0, 1, [⟨⟨0, 32⟩, .rc, 0⟩]⟩,
   ⟨0x600110, 0x20, 4, 0x0, 1, [⟨⟨0, 24⟩, .ro, 0⟩]⟩,
   ⟨0x600200, 0x10, 8, 0x0, 1, [⟨⟨12, 20⟩, .rws, 0⟩]⟩,
   ⟨0x600204, 0x10, 8, 0x0, 1, [⟨⟨0, 16⟩, .rws, 0⟩, ⟨⟨31, 1⟩, .rws, 0⟩]⟩,
   ⟨0x600208, 0x10, 8, 0x0, 1, [⟨⟨0, 21⟩, .rws, 0⟩]⟩,
   ⟨0x600400, 0x20, 16, 0x0, 1, [⟨⟨0, 1⟩, .rws, 0⟩, ⟨⟨1, 4⟩, .rws, 0⟩]⟩,
   ⟨0x600404, 0x20, 16, 0x0, 1, [⟨⟨0, 32⟩, .rws, 0⟩]⟩,
   ⟨0x600408, 0x20, 16, 0x0, 1, [⟨⟨0, 16⟩, .rws, 0⟩]⟩,
   ⟨0x60040c, 0x20, 16, 0x0, 1, [⟨⟨0, 32⟩, .rws, 0⟩]⟩,
   ⟨0x600410, 0x20, 16, 0x0, 1, [⟨⟨0, 16⟩, .rws, 0⟩]⟩,
   ⟨0x600414, 0x20, 16, 0x0, 1, [⟨⟨0, 32⟩, .ro, 0⟩]⟩,
   ⟨0x600418, 0x20, 16, 0x0, 1, [⟨⟨0, 2⟩, .ro, 0⟩, ⟨⟨8, 8⟩, .ro, 0⟩]⟩]

/-- The FW registers, from the register tables of chapter 15. -/
def regTable.FW : List RegRow :=
  [⟨0x60000, 0x0, 1, 0x0, 1, [⟨⟨0, 3⟩, .ro, 0⟩, ⟨⟨3, 3⟩, .ro, 0⟩, ⟨⟨6, 1⟩, .ro, 0⟩, ⟨⟨7, 1⟩, .ro, 0⟩, ⟨⟨8, 1⟩, .ro, 0⟩, ⟨⟨9, 1⟩, .ro, 0⟩, ⟨⟨10, 1⟩, .ro, 0⟩]⟩,
   ⟨0x60004, 0x0, 1, 0x0, 1, [⟨⟨0, 23⟩, .wo, 0⟩, ⟨⟨31, 1⟩, .wo, 0⟩]⟩,
   ⟨0x60008, 0x0, 1, 0x0, 1, [⟨⟨0, 8⟩, .ro, 0⟩]⟩,
   ⟨0x6000c, 0x0, 1, 0x0, 1, [⟨⟨0, 32⟩, .ro, 0⟩]⟩,
   ⟨0x60010, 0x0, 1, 0x0, 1, [⟨⟨0, 7⟩, .ro, 0⟩, ⟨⟨8, 7⟩, .ro, 0⟩]⟩,
   ⟨0x60014, 0x0, 1, 0x0, 1, [⟨⟨0, 32⟩, .ro, 0⟩]⟩,
   ⟨0x60018, 0x0, 1, 0x0, 1, [⟨⟨0, 32⟩, .rc, 0⟩]⟩,
   ⟨0x6001c, 0x0, 1, 0x0, 1, [⟨⟨0, 2⟩, .ro, 0⟩, ⟨⟨2, 3⟩, .ro, 0⟩]⟩,
   ⟨0x60020, 0x0, 1, 0x0, 1, [⟨⟨0, 8⟩, .ro, 0⟩]⟩,
   ⟨0x60024, 0x0, 1, 0x0, 1, [⟨⟨0, 1⟩, .w1c, 0⟩, ⟨⟨1, 1⟩, .w1c, 0⟩, ⟨⟨2, 1⟩, .w1c, 0⟩, ⟨⟨3, 1⟩, .w1c, 0⟩, ⟨⟨4, 1⟩, .w1c, 0⟩, ⟨⟨5, 1⟩, .w1c, 0⟩]⟩,
   ⟨0x60040, 0x4, 8, 0x0, 1, [⟨⟨0, 32⟩, .ro, 0⟩]⟩,
   ⟨0x60060, 0x4, 8, 0x0, 1, [⟨⟨0, 32⟩, .ro, 0⟩]⟩,
   ⟨0x60100, 0x0, 1, 0x0, 1, [⟨⟨0, 32⟩, .rw, 0⟩]⟩,
   ⟨0x60104, 0x0, 1, 0x0, 1, [⟨⟨0, 16⟩, .rw, 0⟩]⟩,
   ⟨0x60108, 0x0, 1, 0x0, 1, [⟨⟨0, 2⟩, .wo, 0⟩]⟩,
   ⟨0x6010c, 0x0, 1, 0x0, 1, [⟨⟨0, 8⟩, .ro, 0⟩]⟩]

/-- The SEC registers, from the register tables of chapter 15. -/
def regTable.SEC : List RegRow :=
  [⟨0x50000, 0x0, 1, 0x0, 1, [⟨⟨0, 1⟩, .ro, 0⟩, ⟨⟨1, 1⟩, .ro, 0⟩, ⟨⟨2, 1⟩, .ro, 0⟩, ⟨⟨3, 1⟩, .ro, 0⟩, ⟨⟨4, 4⟩, .ro, 0⟩]⟩,
   ⟨0x50004, 0x0, 1, 0x0, 1, [⟨⟨0, 12⟩, .ro, 0⟩]⟩,
   ⟨0x50010, 0x0, 1, 0x0, 1, [⟨⟨0, 2⟩, .wo, 0⟩, ⟨⟨2, 2⟩, .wo, 0⟩]⟩,
   ⟨0x50014, 0x0, 1, 0x0, 1, [⟨⟨0, 3⟩, .ro, 0⟩]⟩,
   ⟨0x50018, 0x0, 1, 0x0, 1, [⟨⟨0, 32⟩, .rw, 0⟩]⟩,
   ⟨0x5001c, 0x0, 1, 0x0, 1, [⟨⟨0, 16⟩, .rw, 0⟩]⟩,
   ⟨0x50020, 0x4, 8, 0x0, 1, [⟨⟨0, 32⟩, .ro, 0⟩]⟩,
   ⟨0x50040, 0x0, 1, 0x0, 1, [⟨⟨0, 32⟩, .rc, 0⟩]⟩]

/-- Every register of the register space (R452). -/
def regTable : List RegRow :=
  regTable.GLB ++
  regTable.CCn0 ++
  regTable.CCn1 ++
  regTable.MC ++
  regTable.CAM ++
  regTable.ISPm ++
  regTable.VID ++
  regTable.TAU ++
  regTable.HPx ++
  regTable.SEMn ++
  regTable.SEM ++
  regTable.QM ++
  regTable.STC ++
  regTable.PM ++
  regTable.CPS ++
  regTable.FAB ++
  regTable.FW ++
  regTable.SEC

/-- Does a register row hold the offset (R441, R452)? -/
def RegRow.covers (r : RegRow) (off : Nat) : Bool :=
  decide (r.off ≤ off) &&
  (let d := off - r.off
   let i := if r.step = 0 then 0 else Nat.min (d / r.step) (r.count - 1)
   let d' := d - r.step * i
   let j := if r.step2 = 0 then 0 else d' / r.step2
   decide (i < r.count) && decide (j < r.count2) && decide (d' - r.step2 * j = 0))

/-- The register row at an offset; none for an unassigned offset (R444). -/
def regRow? (off : Nat) : Option RegRow := regTable.find? (fun r => r.covers off)

/-- The bits of a field. -/
def Fld.mask (f : Fld) : Word := BitVec.ofNat 32 ((pow2 f.w - 1) * pow2 f.lo)

/-- Read a field of a word. -/
def Fld.get (f : Fld) (w : Word) : Nat := (w.toNat / pow2 f.lo) % pow2 f.w

/-- A word with a field replaced by the low bits of `v`. -/
def Fld.put (f : Fld) (w : Word) (v : Nat) : Word :=
  (w &&& ~~~ f.mask) ||| BitVec.ofNat 32 ((v % pow2 f.w) * pow2 f.lo)

/-- The bits of a register whose access code is `a`. -/
def RegRow.accMask (r : RegRow) (a : Acc) : Word :=
  r.fields.foldl (fun m f => if f.acc = a then m ||| f.fld.mask else m) 0

/-- Does the register have a field of access code `a`? -/
def RegRow.has (r : RegRow) (a : Acc) : Bool := r.fields.any (fun f => f.acc = a)

/-- The reset word the register tables state; a field whose reset the table marks with a dash or U counts 0 here. -/
def RegRow.resetWord (r : RegRow) : Word :=
  r.fields.foldl (fun m f => f.fld.put m f.reset) 0

/-- A status register (R32): every field RO, RC or W1C. -/
def RegRow.isStatus (r : RegRow) : Bool := !(r.has .rw || r.has .rws || r.has .wo)

end Sys2Proof.Machine
end

