-- ==== Sys2Proof/Machine/Residue.lean ====
section
/-! DEFINITION. Residues and what stands beside them (R316), and the identities by which the QS8 checks a value (R317 to
R319, R321). -/

namespace Sys2Proof.Machine

/-- The residue of an integer, 0 to 6 (R9, R316). -/
def residue (x : Int) : Nat := (x % 7).toNat

/-- What a floating-point value carries: the residue of its significand with its sign, the parity bit of its exponent field
and sign, and the duplicated NaN and infinity flags (R316). -/
structure Guard where
  res : Nat := 0
  par : Bool := false
  nan : Bool := false
  inf : Bool := false
  deriving DecidableEq, Repr

/-- Even parity over the low `w` bits of a number. -/
def parity : Nat → Nat → Bool
  | 0, _ => false
  | w + 1, x => (x % 2 = 1) != parity w (x / 2)

/-- What a code of a floating-point layout carries (R316). -/
def FpFmt.guard (f : FpFmt) (code : Nat) : Guard :=
  let par := parity (f.eb + 1) (bits code f.mb (f.eb + 1))
  match f.decode code with
  | .nan => { nan := true }
  | .inf _ => { inf := true, par := par }
  | .fin neg m _ => { res := residue (if neg then -(m : Int) else (m : Int)), par := par }

/-- The residue of a value as a term of an addition's identity, all terms scaled to one exponent: 2^k is 1, 2 or 4 mod 7
(R317). -/
def FpFmt.termRes (f : FpFmt) (code : Nat) : Nat :=
  match f.decode code with
  | .fin neg m e => residue ((if neg then -(m : Int) else (m : Int)) * (pow2 ((e - f.qmin).toNat % 3) : Int))
  | _ => 0

/-- The check of a floating-point result: `want` is the code that the identity predicts from the operands and the removed
amount, `got` the code that the datapath gives. It fails where the identity, the parity bit or a flag differs (R317, R318). -/
def FpFmt.fails (f : FpFmt) (want got : Nat) : Bool :=
  f.termRes want != f.termRes got || (f.guard want).par != (f.guard got).par ||
    (f.guard want).nan != (f.guard got).nan || (f.guard want).inf != (f.guard got).inf

/-- The check of an integer result against the residue that its operands predict (R317 to R319). -/
def intFails (want : Nat) (got : Int) : Bool := decide (residue got ≠ want)

/-- The check of a code of any format against the fault-free code (R318: y = code × 2^s + removed amount). -/
def Fmt.fails (f : Fmt) (want got : Nat) : Bool :=
  if f.isInt then intFails (residue (f.toInt want)) (f.toInt got) else f.fp.fails want got

/-- An integer with bits of its 64-bit two's complement inverted. -/
def flipInt (mask : Nat) (x : Int) : Int := sgn 64 (Nat.xor (unsgn 64 x) (mask % pow2 64))

/-- A code of `w` bits with bits inverted. -/
def flipCode (w mask x : Nat) : Nat := Nat.xor (x % pow2 w) (mask % pow2 w)

/-- A working value of the drain path with bits inverted, and whether the stage that gave it then fails its check (R318):
an FP32 value in its code, an exact integer with its exponent in the significand. -/
def Val.flip (fp : Bool) (mask : Nat) (x : Val) : Val × Bool :=
  if fp then
    let want := x.code32.toNat
    let got := flipCode 32 mask want
    (Fmt.fp32.decode got, Fmt.fp32.fp.fails want got)
  else
    match x with
    | .fin neg m e =>
      let i : Int := if neg then -(m : Int) else (m : Int)
      let j := flipInt mask i
      (.fin (decide (j < 0)) j.natAbs e, intFails (residue i) j)
    | y => (y, false)

end Sys2Proof.Machine
end

