-- ==== Sys2Proof/Machine/Tbl.lean ====
section
/-! DEFINITION. Tables: lists of (key, value) pairs with rising keys. Every indexed piece of state is held in one, an
unlisted key standing for the piece's value at reset. -/

namespace Sys2Proof.Machine

/-- A table from numbers to values, kept in rising order of key. -/
abbrev Tbl (α : Type) := List (Nat × α)

/-- The value at a key, if listed. -/
def Tbl.find? {α : Type} : Tbl α → Nat → Option α
  | [], _ => none
  | (k, v) :: t, i => if k = i then some v else Tbl.find? t i

/-- The value at a key, or `d` where it is not listed. -/
def Tbl.getD {α : Type} (t : Tbl α) (i : Nat) (d : α) : α := (Tbl.find? t i).getD d

/-- Put a value at a key. -/
def Tbl.set {α : Type} : Tbl α → Nat → α → Tbl α
  | [], i, x => [(i, x)]
  | (k, v) :: t, i, x =>
    if i < k then (i, x) :: (k, v) :: t
    else if k = i then (i, x) :: t
    else (k, v) :: Tbl.set t i x

/-- Take a key out. -/
def Tbl.erase {α : Type} : Tbl α → Nat → Tbl α
  | [], _ => []
  | (k, v) :: t, i => if k = i then Tbl.erase t i else (k, v) :: Tbl.erase t i

/-- Put a value at a key, or take the key out where the value is the one an unlisted key stands for. -/
def Tbl.put {α : Type} [DecidableEq α] (dflt : α) (t : Tbl α) (i : Nat) (x : α) : Tbl α :=
  if x = dflt then Tbl.erase t i else Tbl.set t i x

/-- Change the value at a key. -/
def Tbl.upd {α : Type} (t : Tbl α) (i : Nat) (d : α) (f : α → α) : Tbl α :=
  Tbl.set t i (f (Tbl.getD t i d))

/-- The keys of a table, in rising order. -/
def Tbl.keys {α : Type} (t : Tbl α) : List Nat := t.map (·.1)

/-- The entries whose key satisfies a test. -/
def Tbl.restrict {α : Type} (t : Tbl α) (p : Nat → Bool) : Tbl α := t.filter (fun e => p e.1)

/-- A sorted set of numbers: put one in. -/
def insertNat (x : Nat) : List Nat → List Nat
  | [] => [x]
  | y :: t => if x < y then x :: y :: t else if x = y then y :: t else y :: insertNat x t

end Sys2Proof.Machine
end

