-- ==== Sys2Proof/Machine/StateCore.lean ====
section
/-! DEFINITION. The state of a compute core, of its DMA engine and of a gang (chapters 2 to 6 and 11). -/

namespace Sys2Proof.Machine

/-- The halt reasons of Table 4.6 and Table 5.2. -/
inductive HaltReason where
  | illegalOpcode | reservedField | slotConflict | divergentBranch | addressRange | misaligned | formatMismatch
  | loopDepth | flagUndeclared | arrayState | outlierLimit | breakpoint | haltAtCount | eccUncorrectable
  | stallWatchdog | nonReplayableFault | tagLine | loopState | regUnset | hostHalt
  | feedLeftover | descField | localFlag | countRange | endInLoop | nmsCount
  deriving DecidableEq, Repr

/-- A stationary row as it was written: its format and its 64-byte image (R165, R168). -/
structure CellRow where
  fmt  : Fmt
  bits : BitVec 512
  deriving DecidableEq, Repr

/-- One register set of one array (R48, R55, R79, R85, R166). An unlisted row or side row holds undefined values. -/
structure CellSet where
  /-- Format and activation block size (0: none); `none` is the tag NONE of R48. -/
  tag      : Option (Fmt × Nat) := none
  /-- Marked-row count (R166). -/
  marked   : Nat := 0
  /-- No row has been written since the set became the shadow (R48). -/
  fresh    : Bool := true
  rows     : Tbl CellRow := []
  /-- Main rows disabled by an outlier marking (R85). -/
  disabled : List Nat := []
  /-- The BF16 side rows, 64 columns of 16 bits (R55). -/
  side     : Tbl (BitVec 1024) := []
  /-- Activation block shifts, one byte per column (R79). -/
  blk      : Tbl (BitVec 512) := []
  deriving DecidableEq, Repr

/-- An accumulator entry: its tag (true: FP32), its 64 columns of 32 bits (R52), and whether it has been written in the
layer and not been drained since (R132). -/
structure AccEntry where
  fp   : Bool
  cols : BitVec 2048
  open_ : Bool := false
  deriving DecidableEq, Repr

/-- The running argmax of one column of one array (R67). -/
structure ArgCol where
  have_ : Bool := false
  max   : Val := .nan
  code  : Nat := 0
  idx   : Nat := 0xFFFF
  count : Nat := 0
  deriving DecidableEq, Repr

/-- A statistics slot (Table 3.8). -/
structure StatSlot where
  sse   : Word := 0
  ssv   : Word := 0
  count : Nat := 0
  clip  : Nat := 0
  deriving DecidableEq, Repr

/-- A loaded table buffer (Table 5.13). -/
structure TabBuf where
  x0 : Word
  ls : Int
  t  : List Word
  deriving DecidableEq, Repr

/-- The current codebook of a weight feed (R82): its kind (true: CB4) and its bytes. -/
structure Codebook where
  cb4   : Bool
  bytes : List Nat
  deriving DecidableEq, Repr

/-- A bundle in an issue queue (R108): its bundle index, its bits, its tag (0 in plain encoding) and whether its line
is marked VALID (R116). -/
structure QBundle where
  idx   : Nat
  bits  : BitVec 256
  tag   : Word
  valid : Bool
  deriving DecidableEq, Repr

/-- The register operands as the last earlier bundle left them (R112), STICKY, LOOP_DEPTH and RETIRED among them. -/
structure View where
  s : Tbl Dword := []
  a : Tbl Addr := []
  v : Tbl VReg := []
  p : Tbl (BitVec 512) := []
  lc : Tbl Word := []
  sticky : BitVec 2 := 0
  depth : Nat := 0
  retired : Dword := 0
  deriving DecidableEq, Repr

/-- A decoded bundle that has not retired: which slots have issued (bit s for slot s), and its operands' view. -/
structure InFlight where
  q      : QBundle
  issued : BitVec 6 := 0
  /-- Its matrix operation has entered the matrix queue (R160). -/
  queued : Bool := false
  /-- The bits of STICKY that its own operations have raised (R122). -/
  raised : BitVec 2 := 0
  view   : View := {}
  deriving DecidableEq, Repr

/-- A live loop: its body runs from `first` to `last` (R127). -/
structure Loop where
  first : Nat
  last  : Nat
  deriving DecidableEq, Repr

/-- A control decision that a member reports to the leader (R109). -/
inductive Decision where
  | branch (taken : Bool) (target : Int)
  | jumpReg (target : Nat)
  | loop (count : Nat) (endOff : Nat)
  | lcset (level : Nat) (value : Nat)
  deriving DecidableEq, Repr

/-- A matrix operation in the matrix queue, with the register operands it read (R160). -/
inductive MOp where
  | mstream (amask : BitVec 4) (add outl feed : Bool) (base v : Nat) (desc : Addr)
  | mswap (amask : BitVec 4)
  | mclr (amask : BitVec 4) (base n : Nat) (fp : Bool)
  | mard (arr : Fin 4) (ent : Nat) (vd : Fin 32) (half : Bool)
  | mawr (arr : Fin 4) (ent : Nat) (data : BitVec 2048) (fp : Bool)
  deriving DecidableEq, Repr

/-- A matrix operation that waits in the matrix queue: the number of bundles before its own, its bundle's index and tag
(R160). -/
structure MEntry where
  ord : Nat
  pos : Nat × Word
  op  : MOp
  deriving DecidableEq, Repr

/-- An MSTREAM that has issued and whose next vector is `j` (R37, R162). -/
structure Stream where
  amask : BitVec 4
  add   : Bool
  outl  : Bool
  feed  : Bool
  base  : Nat
  v     : Nat
  wfmt  : Fmt
  afmt  : Fmt
  /-- Weight block size, 0 where BLK_W is off. -/
  bw    : Nat
  waddr : Nat
  /-- Next byte of the side stream (SRC = 0). -/
  spos  : Nat
  jexp  : Nat
  /-- Marked-row count of the selected active sets (R166). -/
  marked : Nat
  j     : Nat
  /-- Bundles before its own, and its bundle's index and tag. -/
  ord   : Nat
  pos   : Nat × Word
  deriving DecidableEq, Repr

/-- The fields of a drain descriptor (Table 5.15). -/
structure DrainDesc where
  ofmt : Fmt
  rnd : Rnd
  novf : Bool
  act : Nat
  tb : Fin 4
  bmode : Nat
  ob : Nat
  arg : Bool
  noval : Bool
  so : Int
  fix : Int
  ncol : Nat
  lo : Val
  hi : Val
  biasOff : Nat
  expOff : Nat
  pstride : Nat
  shiftOff : Nat
  argOff : Nat
  deriving DecidableEq, Repr

/-- A DRAIN that has issued and waits for its entries (R49, R173): what it is to do, with the descriptor and the tables that
it read at issue. -/
structure DrainJob where
  x : DrainDesc
  /-- First entry, entries, and the arrays selected. -/
  b : Nat
  n : Nat
  sel : List Nat
  /-- Output address. -/
  ao : Nat
  bias : List Byte
  exps : List Byte
  tab : Option TabBuf
  stats : Bool
  first : Bool
  last : Bool
  /-- Bundles before its own, and its bundle's index and tag. -/
  ord : Nat
  pos : Nat × Word
  deriving DecidableEq, Repr

/-- A source of feed bytes, in the order of R170: the bytes of a WFILL not yet in the queue, or a DMA list that may feed. -/
inductive FeedSrc where
  | wfill (main side : List Byte)
  | list (id : Nat)
  deriving DecidableEq, Repr

/-- The checkpoint of a member (R133). -/
structure Checkpoint where
  next       : Nat := 0
  s          : Tbl Dword := []
  a          : Tbl Addr := []
  lc         : Tbl Word := []
  loops      : List Loop := []
  sticky     : BitVec 2 := 0
  layerCount : Word := 0
  retired    : Dword := 0
  deDone     : Word := 0
  deriving DecidableEq, Repr

/-- An outstanding DMA list (R193). -/
structure DList where
  id      : Nat
  off     : Nat
  count   : Nat
  fetched : Nat := 0
  /-- Bundles before that of its DMA operation, and that bundle's index and tag. -/
  ord     : Nat := 0
  pos     : Nat × Word := (0, 0)
  deriving DecidableEq, Repr

/-- A fetched DMA descriptor that has not completed (R193, R194). -/
structure DDesc where
  /-- Its number in the order of fetching. -/
  ser  : Nat
  list : Nat
  idx  : Nat
  off  : Nat
  raw  : List Byte
  /-- It has started: its fields have been checked (R198, R200). -/
  started : Bool := false
  /-- The row or element in progress, bytes of it moved, and its source address. -/
  row  : Nat := 0
  pos  : Nat := 0
  src  : Nat := 0
  /-- Every transfer has been made. -/
  moved : Bool := false
  deriving DecidableEq, Repr

/-- A core's DMA engine (R193 to R201). -/
structure Engine where
  lists  : List DList := []
  descs  : List DDesc := []
  nextId : Nat := 0
  nextSer : Nat := 0
  deriving DecidableEq, Repr

/-- What a member waits on in its sync slot (R123). -/
inductive WaitOn where
  | flag   -- WAIT: a host event flag
  | count  -- WAITL, DWAIT: a local flag or completed descriptors
  deriving DecidableEq, Repr

/-- One compute core: Table 4.4's registers, the sequencer's member state, arrays, drain path, feed and engine. -/
structure Core where
  /-- The leader of the gang that the core belongs to. -/
  gang    : Option Nat := none
  /-- CCn_STATUS reads HALTED. -/
  halted  : Bool := false
  s       : Tbl Dword := []
  a       : Tbl Addr := []
  /-- An unlisted vector or predicate register is unwritten (R119, R133). -/
  v       : Tbl VReg := []
  p       : Tbl (BitVec 512) := []
  lc      : Tbl Word := []
  /-- The live loops, outermost first. -/
  loops   : List Loop := []
  sticky  : BitVec 2 := 0
  layerCount : Word := 0
  retired : Dword := 0
  /-- The bundle index at which execution continues after the bundles retired so far. -/
  next    : Nat := 0
  branchTo : Option Nat := none
  /-- A branch of the current bundle was taken (R129, R131). -/
  taken   : Bool := false
  iq      : List QBundle := []
  cur     : Option InFlight := none
  /-- Earlier bundles that wait only for their matrix operation to issue. -/
  older   : List InFlight := []
  scalarRep : Option Decision := none
  syncRep : Option Decision := none
  atBar   : Bool := false
  atLayer : Bool := false
  /-- A WAIT, WAITL or DWAIT has been reached and its Trail record written (R138). -/
  waiting : Option WaitOn := none
  /-- NR of the LAYER that this member has reached. -/
  layerNr : Bool := false
  /-- The LAYER reached is an END. -/
  layerEnd : Bool := false
  acc     : Tbl AccEntry := []
  /-- Accumulator entries with an uncorrectable word, until a write of the entry (R186): array × 1,024 + entry. -/
  accBad  : List Nat := []
  /-- Values that a datapath fault corrupts when they are next formed (R317 to R319). -/
  flips   : List Flip := []
  sets    : Tbl CellSet := []
  /-- Which of its two sets each array has active. -/
  active  : BitVec 4 := 0
  arg     : Tbl ArgCol := []
  codebook : Option Codebook := none
  tb      : Tbl TabBuf := []
  stats   : Tbl StatSlot := []
  /-- Flags raised during the layer (R101, R103). -/
  convFlags : BitVec 6 := 0
  mq      : List MEntry := []
  stream  : Option Stream := none
  /-- DRAINs that have issued and have not read their entries yet, oldest first (R49). -/
  drains  : List DrainJob := []
  feedMain : List Byte := []
  feedSide : List Byte := []
  feedSrc : List FeedSrc := []
  chk     : Checkpoint := {}
  /-- G of R319. -/
  checkG  : Nat := 0
  de      : Engine := {}
  /-- Core bucket level, in 0.01 byte (R203). -/
  level   : Nat := 13107200
  /-- The metered access that a bucket holds back: its slot (5 for the drain path, 6 + a descriptor's number for the DMA engine), and bytes still
  to be granted (R203). -/
  held    : Option (Nat × Nat) := none
  /-- Bytes already granted to it. -/
  granted : Nat := 0
  /-- Cached instruction blocks by device address (R109). -/
  icache  : Tbl (BitVec 2048) := []
  /-- Circular Trail buffer: 4,096 records of four words (R139). -/
  trail   : Tbl (BitVec 128) := []
  /-- Stream-mode records that could not be written yet (R139). -/
  trailHeld : List (BitVec 128) := []
  /-- Records lost since the last DROP record. -/
  trailLost : Nat := 0
  /-- ACLK cycles without an issue, as last reported to the watchdog (R123; the leader's counts). -/
  stall   : Nat := 0
  /-- The context whose debug settings stay in force until the next bundle boundary although ARM has been cleared (R140). -/
  disarm  : Option Nat := none
  /-- Ranges outside its core memory that the job has written (R337). -/
  outs    : List (Nat × Nat) := []
  /-- Fences in force for the core's logical work since its gang was bound or last replayed (R332): the core logic, and each
  array. -/
  hostedLogic : Bool := false
  hostedArrays : BitVec 4 := 0
  deriving DecidableEq, Repr

/-- How far a gang's job has come. -/
inductive JobState where
  | running     -- executing
  | replaySetup -- stopped by a detection; a replay is set up (R325 steps 1 to 4)
  | debugHalt   -- halted by a debug halt, the job pending (R125)
  deriving DecidableEq, Repr

/-- What an ended job leaves for its completion (Table 10.4). -/
structure JobResult where
  status  : Nat
  aux     : Word := 0
  btag    : Word := 0
  replays : Nat := 0
  deriving DecidableEq, Repr

/-- A job running on a gang; held under its leader's number. -/
structure Job where
  members : List Nat
  ctx     : Nat
  queue   : Nat
  /-- Submission count of the entry. -/
  count   : Nat
  tag     : Word := 0
  /-- Flags that the entry declares as set. -/
  sets    : List Nat := []
  /-- Device address of the variant's code, and its length. -/
  code    : Nat := 0
  codeLen : Nat := 0
  tagged  : Bool := false
  state   : JobState := .running
  /-- A replayed layer is executing: STATE reads REPLAYING (R325). -/
  inReplay : Bool := false
  /-- A HALT command waits until every member has retired this many bundles (R135). -/
  haltAt : Option Nat := none
  /-- Index of the next bundle to be broadcast. -/
  fetch   : Nat := 0
  /-- The broadcast waits until the members have retired a bundle that decides where execution continues. -/
  hold    : Bool := false
  /-- The 256-byte code block whose miss is outstanding (R109). -/
  miss    : Option Nat := none
  /-- Byte offset of the breakpoint not to match again until one other bundle has retired (R136). -/
  skipBkpt : Option Nat := none
  /-- HALT_AT_COUNT already reported at this count (R137). -/
  skipCount : Option Nat := none
  replays : Nat := 0
  /-- The layer in flight is non-replayable (R134). -/
  nr      : Bool := false
  flags   : Tbl Word := []
  chkFlags : Tbl Word := []
  /-- Host event flags held in the gang, oldest first (R327). -/
  heldFlags : List Nat := []
  btag    : Word := 0
  /-- Power phase (R179). -/
  phase   : Nat := 0
  phaseOn : Bool := false
  /-- The compute part of the estimate over the phase, normalised to step 0, and its samples (R359). -/
  phSum   : Nat := 0
  phCnt   : Nat := 0
  /-- The phase in force at the checkpoint, and the learned histories that this attempt of the layer has changed, as they
  were before, newest first (R359). -/
  chkPhase : Option Nat := none
  phUndo  : List (Nat × Option Nat) := []
  /-- The job stops after its next LAYER with this result (R306, R310, R417). -/
  stopAfter : Option JobResult := none
  /-- The gang is held at a LAYER for a firmware handover (R417). -/
  layerHeld : Bool := false
  deriving DecidableEq, Repr

end Sys2Proof.Machine
end

