-- ==== Sys2Proof/Machine/StateFabric.lean ====
section
/-! DEFINITION. The state of the fabric beside its registers (chapter 14). -/

namespace Sys2Proof.Machine

/-- What a neighbour's last HELLO said (Table 14.3). -/
structure Advert where
  rootId : Nat
  rootPrio : Nat
  rootUid : Nat
  dist : Nat
  beacon : Nat
  deriving DecidableEq, Repr

/-- A packet that waits for its output port, and the port whose buffer it still occupies. -/
structure TxEnt where
  k : FPkt
  src : Option Nat := none
  /-- When it was queued, as the count of commands, with the VCLK edges that the command gave for its departure. -/
  at_ : Option (Nat × Nat) := none
  deriving DecidableEq, Repr

/-- The link of one port (R385, R389). -/
structure FPort where
  /-- LSEQ of the next packet sent, LSEQ expected next. -/
  tx : Nat := 0
  rx : Nat := 0
  /-- The replay buffer: packets not yet acknowledged, oldest first, with their resends. -/
  sent : List (FPkt × Nat) := []
  hello : List TxEnt := []
  /-- Its own HELLO has gone out since the port came UP (R384). -/
  greeted : Bool := false
  time : List TxEnt := []
  vc1 : List TxEnt := []
  fwd : List TxEnt := []
  own : Tbl (List TxEnt) := []
  /-- The branch queue of each multicast group (R402). -/
  branch : Tbl (List TxEnt) := []
  /-- Whose turn it is within VC 0. -/
  turn : Nat := 0
  /-- Credits held for the neighbour's buffers, and credits to be returned to it. -/
  cr0 : Nat := 512
  cr1 : Nat := 128
  owe0 : Nat := 0
  owe1 : Nat := 0
  /-- Departure of the outstanding TIME_REQ in 1/8 ns, and the last measurements (R405). -/
  t1 : Option Nat := none
  delays : List Int := []
  advert : Option Advert := none
  deriving DecidableEq, Repr

/-- A multicast packet that has not entered every branch queue (R402); the local ring and descriptor it came from. -/
structure MWait where
  k : FPkt
  src : Option Nat
  left : List Nat
  ring : Option (Nat × Nat) := none
  deriving DecidableEq, Repr

/-- A send descriptor that has started (R396, R398). -/
structure SDesc where
  idx : Nat
  off : Nat
  mc : Bool
  lflag : Option Nat
  deriving DecidableEq, Repr

/-- A send ring beside its registers. -/
structure SRing where
  /-- It has been enabled since reset. -/
  used : Bool := false
  /-- Descriptor to start next. -/
  next : Nat := 0
  descs : List SDesc := []
  /-- Packets not yet acknowledged, in order, with their descriptor. -/
  unacked : List (Nat × FPkt) := []
  /-- Next ESEQ by target, and the targets that have had a packet since the ring was enabled (R400). -/
  seqs : Tbl Nat := []
  begun : List Nat := []
  /-- Consecutive periods of ACK_US without progress. -/
  periods : Nat := 0
  deriving DecidableEq, Repr

/-- Acknowledgements to one (SRC, RING): the last ESEQ accepted, packets not acknowledged, the TCLK edge of the last ACK. -/
structure AckSt where
  eseq : Nat
  n : Nat := 0
  last : Option Nat := none
  deriving DecidableEq, Repr

/-- The fabric. -/
structure Fab where
  ports : Tbl FPort := []
  /-- The route image in force (R393). -/
  route : List Byte := []
  /-- Expected ESEQ and acknowledgements by SRC × 16 + RING (R400). -/
  expected : Tbl Nat := []
  acks : Tbl AckSt := []
  rings : Tbl SRing := []
  /-- The root: priority, UID, identifier; its beacon; the roots forgotten, by UID, each with its beacon (R391). -/
  root : Option (Nat × Nat × Nat) := none
  beacon : Nat := 0
  forgot : Tbl Nat := []
  /-- The device has followed a parent and has neither a parent nor become root since (R374, R406). -/
  orphan : Bool := false
  /-- Packets of this device for itself (R393). -/
  loop : List FPkt := []
  /-- Pruned branches by group × 4 + port, with the devices told; the device that pruned this one, by group. -/
  pruned : Tbl (List Nat) := []
  pruner : Tbl Nat := []
  mwait : List MWait := []
  /-- A message has been accepted since the device became a follower; consecutive messages within 20 ns; I; the root's
  flags (R404, R406). -/
  synced : Bool := false
  lockRun : Nat := 0
  integ : Int := 0
  rootValid : Bool := false
  rootLocked : Bool := false
  deriving DecidableEq, Repr

end Sys2Proof.Machine
end

