-- ==== Sys2Proof/Machine/StateHost.lean ====
section
/-! DEFINITION. The state of the queue manager, the contexts, the semaphores, the host ports, the commit and the health
units (chapters 1, 10 and 11). -/

namespace Sys2Proof.Machine

/-- Queue states (Table 10.6). -/
inductive QState where
  | free | active | stopped | draining | parked
  deriving DecidableEq, Repr

/-- A pending entry: consumed, its completion not yet delivered (R304). -/
structure Entry where
  /-- Submission count c. -/
  count   : Nat
  /-- The 64 bytes as they stood at consumption (R293). -/
  raw     : List Byte
  started : Bool := false
  /-- The input-status word matched (R302). -/
  degraded : Bool := false
  /-- How the entry ended; its completion awaits delivery. -/
  result  : Option JobResult := none
  /-- Order in which doorbells made entries visible (R300). -/
  seen    : Nat := 0
  deriving DecidableEq, Repr

/-- A queue (R293 to R303). -/
structure Queue where
  state   : QState := .free
  persist : Bool := false
  deadlocked : Bool := false
  vector  : Nat := 0
  sqBase  : Nat := 0
  cqBase  : Nat := 0
  sqLog   : Nat := 4
  cqLog   : Nat := 4
  icCount : Nat := 0
  icUsec  : Nat := 0
  sqCons  : Word := 0
  sqTail  : Word := 0
  cqProd  : Word := 0
  cqHead  : Word := 0
  entries : List Entry := []
  /-- Completions written since the last message (R285). -/
  unsig   : Nat := 0
  /-- Visibility orders of doorbells not yet consumed: (first count not covered, order). -/
  bells   : List (Word × Nat) := []
  /-- Entries below this count, not yet consumed, end with this status (CANCEL, port loss, PREPARE_OFF). -/
  cut     : Option (Word × Nat) := none
  deriving DecidableEq, Repr

/-- A resident context (R290). -/
structure Ctx where
  basket   : Nat
  len      : Nat
  bind     : Nat
  affinity : Nat
  deriving DecidableEq, Repr

/-- A hardware semaphore (R286). -/
structure Sem where
  holder : Option Port := none
  /-- HP-B held it last; after reset HP-B counts as the last holder. -/
  lastB  : Bool := true
  deriving DecidableEq, Repr

/-- A CHECK or APPLY whose validation is in progress (R26, R27). -/
structure Checking where
  apply : Bool
  mode  : CommitMode := .immediate
  cam   : Nat := 0
  deriving DecidableEq, Repr

/-- The pending commit (R27): a copy of the dirty set, with the images that its registers name, copied at acceptance. -/
structure Pending where
  port   : Port
  mode   : CommitMode
  cam    : Nat
  time   : Dword
  dirty  : Tbl Word
  /-- TCLK edge of acceptance, from which the timeout in ms counts (R30). -/
  accepted : Nat
  timeout  : Nat
  /-- Memory images copied at acceptance, by the offset of the register that names them. -/
  images : Tbl (List Byte)
  deriving DecidableEq, Repr

/-- What one host port has of its own beside its registers (R451). -/
structure PortSt where
  /-- Staged values of dirty registers (R25). -/
  stage    : Tbl Word := []
  /-- Validations written and not ended, oldest first. -/
  checking : List Checking := []
  /-- The latch of each RO or RC pair, by offset of its _LO half (R447). -/
  latch    : Tbl Word := []
  /-- The pending _LO half of each RW or WO pair, and whether it is fresh (R448). -/
  pairLo   : Tbl (Word × Bool) := []
  /-- SUB and flags latched by a stamp pop, by event input (R379). -/
  evtInfo  : Tbl Word := []
  /-- The port was lost since its last attach (Table 10.8: a link-up then reads LOST again). -/
  lost     : Bool := false
  attached : Bool := false
  linkUp   : Bool := false
  /-- TCLK edge of the last beat (R309). -/
  beat     : Nat := 0
  deriving DecidableEq, Repr

/-- Health states of a unit (R323, R343). -/
inductive Health where
  | healthy | observed | fenced
  deriving DecidableEq, Repr

/-- A field-test result (Table 11.5). -/
structure FTest where
  result : Nat := 0
  full   : Bool := false
  /-- TCLK edge of the test; none before the first. -/
  at_    : Option Nat := none
  mv     : Nat := 0
  mhz    : Nat := 0
  temp   : Nat := 0
  deriving DecidableEq, Repr

/-- A unit with a health state (R322). -/
structure HUnit where
  st     : Health := .healthy
  /-- Seconds left of the 72-hour OBSERVED timer (R323). -/
  remain : Nat := 0
  /-- Corrected errors in the current 24-hour window (Table 11.1). -/
  corr   : Nat := 0
  test   : FTest := {}
  /-- An UNFENCE change is pending (R333). -/
  unfence : Bool := false
  /-- A confirmation test is due (R341). -/
  confirm : Bool := false
  deriving DecidableEq, Repr

/-- What the block presents outside (the model's own record of it, newest first): read completions, messages, pins. -/
inductive Out where
  /-- Completion of a register read. -/
  | regData (p : Port) (v : Word)
  /-- A BAR access handled as Unsupported Request (R443, R446). -/
  | unsupported (p : Port)
  /-- Data of a BAR2 read; poisoned where a word was uncorrectable (R186). -/
  | bar2Data (p : Port) (l : List Byte) (poisoned : Bool)
  /-- An MSI-X message (R284). -/
  | msix (p : Port) (vector : Nat)
  /-- A message on SYNC_OUT (R377). -/
  | syncOut (l : List Byte)
  /-- A packet sent on a fabric port, and its bytes. -/
  | fabric (port : Nat) (k : FPkt) (raw : List Byte)
  /-- The VDD_CORE set point in mV, written over AVSBus to a rail (R347); CLEAR_FAULTS over PMBus to an address (R348). -/
  | avsVoltage (avsRail mv : Nat)
  | clearFaults (pmbusAddr : Nat)
  /-- A write on a sensor control bus (R250). -/
  | sensor (bus : Nat) (w : SensorWrite)
  /-- A host transfer on a sensor control bus (R250). -/
  | scb (bus : Nat) (w : SensorWrite) (read : Bool)
  deriving DecidableEq, Repr

end Sys2Proof.Machine
end

