-- ==== Sys2Proof/Machine/StateMedia.lean ====
section
/-! DEFINITION. The state of the camera ports, the image pipes, the sensor buses, the video engines and the tensor assembly
unit beside their registers (chapters 8 and 9). -/

namespace Sys2Proof.Machine

/-- A write batch on a sensor control bus (R250): one group of one set. -/
structure SBatch where
  stream : Nat
  /-- The target frame and the issue frame. -/
  target : Nat
  issue  : Nat
  /-- Frame-start stamp of the issue frame. -/
  stamp  : Dword
  gain   : Bool
  bus    : Nat
  writes : List SensorWrite
  deriving DecidableEq, Repr

/-- A sensor control bus: the released batches, the one served first, and the host transfer that waits or runs. -/
structure SBus where
  batches : List SBatch := []
  /-- The host transfer (the write of XFER with XDATA) and whether it runs. -/
  host    : Option (SensorWrite × Bool) := none
  hostRuns : Bool := false
  deriving DecidableEq, Repr

/-- An accepted parameter set whose parts are not all in force (R249 to R251). -/
structure PSet where
  target : Nat
  id     : Nat
  /-- ISP parameter block: its address, and its bytes once fetched. -/
  param  : Option Nat := none
  block  : Option (List Byte) := none
  expW   : List SensorWrite := []
  gainW  : List SensorWrite := []
  deriving DecidableEq, Repr

/-- One exposure of a frame: lines received, whether its frame start or a line has come, whether it has closed and has had
its frame end, and the lines that the pipe has taken. -/
structure OExp where
  n      : Nat := 0
  /-- Of these, lines that arrived and were not filled in. -/
  got    : Nat := 0
  begun  : Bool := false
  closed : Bool := false
  ended  : Bool := false
  rows   : List (List Nat) := []
  deriving DecidableEq, Repr

/-- A frame in reception, or closed and not yet complete. -/
structure OFrame where
  /-- The descriptor that governs it. -/
  desc   : List Byte
  frame  : Nat
  sensor : BitVec 16
  start  : Dword
  endT   : Dword := 0
  buf    : Option Nat
  flags  : Word
  exps   : List OExp
  /-- The pipe drops the rest of the frame (R237). -/
  cut    : Bool := false
  hdrErr : Nat := 0
  crcErr : Nat := 0
  /-- The parameter block and the identifiers in force (R251). -/
  block  : List Byte
  ispPs  : Nat
  expPs  : Nat
  gainPs : Nat
  /-- Enables of the stream before the one that it belongs to (R232). -/
  gen    : Nat := 0
  deriving DecidableEq, Repr

/-- What a frame of a stream takes from the one before it: AE_AVG, AWB_RG and AWB_BG (R258), the half of TNR_BASE that holds
the reference, and the TRUNCATED bit (R245). -/
structure CamHist where
  avgY   : Word := 0
  avgRg  : Word := 0
  avgBg  : Word := 0
  tnrHalf : Bool := false
  wasCut : Bool := false
  deriving DecidableEq, Repr

/-- A commit that waits for the stream's next frame start (R232). -/
structure StrNext where
  en    : Bool
  /-- EN goes from 0 to 1. -/
  fresh : Bool
  desc  : List Byte
  at_   : Dword
  deriving DecidableEq, Repr

/-- A camera stream beside its registers. -/
structure CamStr where
  on     : Bool := false
  desc   : List Byte := []
  /-- The descriptor last copied by a commit. -/
  last   : List Byte := []
  next   : Option StrNext := none
  /-- A frame has started since the enable. -/
  begun  : Bool := false
  deadline : Nat := 0
  lateBefore : Bool := false
  /-- Frames that still carry SENSOR_UNSURE (R252). -/
  unsure : Nat := 0
  lastTarget : Option Nat := none
  sets   : List PSet := []
  /-- Batches of this stream's issue frames that WR_DELAY still holds. -/
  due    : List SBatch := []
  /-- SENSOR_LATE and SENSOR_ERR bits of frames that have not started. -/
  doubts : Tbl Word := []
  block  : List Byte := []
  ispPs  : Nat := 0
  expPs  : Nat := 0
  gainPs : Nat := 0
  nextBuf : Nat := 0
  /-- The frame last written into each buffer (R244). -/
  bufs   : Tbl Nat := []
  cur    : Option OFrame := none
  /-- Frames closed and not complete, oldest first. -/
  closed : List OFrame := []
  /-- Enables of the stream, and what the frames of each of them hand on: of the last one, and of those with frames that are
  not complete. -/
  gen    : Nat := 0
  hist   : Tbl CamHist := []
  deriving DecidableEq, Repr

/-- A decoded picture that waits for its turn in display order (R266). -/
structure Held where
  pic   : Pic
  /-- The descriptor under which it was decoded, and is output (R232, R262). -/
  desc  : List Byte
  order : Nat
  /-- The crop: left, top, width, height. -/
  crop  : Crop
  au    : Word
  time  : List Byte
  key   : Bool
  first : Bool
  grain : Bool
  extra : Bool
  /-- Concealed blocks, and a concealed picture referenced since the last key frame. -/
  concealed : Nat
  refConcealed : Bool
  deriving DecidableEq, Repr

/-- A decode context beside its registers (R262 to R269). -/
structure DCtx where
  on    : Bool := false
  desc  : List Byte := []
  last  : List Byte := []
  waitKey : Bool := true
  /-- RASL pictures are discarded: the key frame was a CRA or BLA that ended WAIT_KEY. -/
  rasl  : Bool := false
  held  : List Held := []
  /-- The picture decoded just before. -/
  prev  : Option Pic := none
  /-- A concealed picture since the last key frame. -/
  tainted : Bool := false
  /-- After an EOS entry every held picture is output. -/
  flush : Bool := false
  /-- The next picture waits for a free buffer (OUT_WAIT). -/
  outWait : Bool := false
  /-- The descriptor of an enable that waits until the pictures held from before are output. -/
  next  : Option (List Byte) := none
  nextBuf : Nat := 0
  bufs  : Tbl Nat := []
  deriving DecidableEq, Repr

/-- Settings that a commit gave an engine which still works under the older ones: EN, whether a commit since has enabled it
anew, and the descriptor (R232, R262). -/
structure EngNext where
  en    : Bool
  fresh : Bool
  desc  : List Byte
  deriving DecidableEq, Repr

/-- An encode context beside its registers (R270, R271). -/
structure ECtx where
  on    : Bool := false
  desc  : List Byte := []
  last  : List Byte := []
  /-- Pictures since the last IDR; none: the next picture is an IDR. -/
  since : Option Nat := none
  /-- The coded picture that waits for room. -/
  wait  : Option (List Byte × Bool) := none
  /-- Commits that the picture in progress holds off. -/
  next  : Option EngNext := none
  deriving DecidableEq, Repr

/-- A filled slot of a batch. -/
structure BSlot where
  err  : Nat
  tag  : Nat
  time : List Byte
  count : Word
  deriving DecidableEq, Repr

/-- A batch stream beside its registers (R276 to R278). -/
structure BStr where
  on    : Bool := false
  desc  : List Byte := []
  last  : List Byte := []
  /-- The batch in progress: its buffer and its filled slots. -/
  buf   : Option Nat := none
  slots : List BSlot := []
  /-- A FLUSH entry, or a commit that clears EN, ends the batch. -/
  flush : Bool := false
  /-- Commits that the batch in progress holds off. -/
  next  : Option EngNext := none
  nextBuf : Nat := 0
  bufs  : Tbl Nat := []
  /-- FIRST of the last record. -/
  first : Word := 0
  deriving DecidableEq, Repr

/-- The media engines. -/
structure Media where
  str   : Tbl CamStr := []
  bus   : Tbl SBus := []
  /-- The descriptor of the memory job that each pipe runs. -/
  mjob  : Tbl (List Byte) := []
  dctx  : Tbl DCtx := []
  ectx  : Tbl ECtx := []
  bstr  : Tbl BStr := []
  /-- The context last served by each video engine, the stream last served by the TAU. -/
  engLast : Tbl Nat := []
  tauLast : Nat := 63
  deriving DecidableEq, Repr

end Sys2Proof.Machine
end

