-- ==== Sys2Proof/Machine/StatePower.lean ====
section
/-! DEFINITION. The state of the power manager, the firmware, the security block, the start and stop of the device and
Compass (chapters 12, 13, 15 and 16), beside their registers. -/

namespace Sys2Proof.Machine

/-- A regulator rail as the power manager last read it (R347, R349). -/
structure Rail where
  mv   : Nat := 0
  cur  : Nat := 0
  /-- Consecutive samples with both readings bit-identical. -/
  same : Nat := 0
  /-- Consecutive samples with no cause of suspicion. -/
  good : Nat := 0
  deriving DecidableEq, Repr

/-- One 100 µs interval as the mode's prediction uses it (R358): its mean compute activity, by the step it ran at, and its compute
budget. -/
structure Interval where
  comp : Tbl Nat
  budget : Int
  deriving DecidableEq, Repr

/-- The power manager. Powers are in 0.01 W; a field named `…F` is in 1/4,096 of that. -/
structure Pm where
  /-- The effective step (R345) and the source that sets it. -/
  step : Nat := 0
  limit : Nat := 0
  sust : Nat := 0
  /-- The step that boost demands, faster than SUST_STEP (R358). -/
  boost : Option Nat := none
  /-- The demand of PHASE mode (R359). -/
  phaseStep : Nat := 0
  /-- The VDD_CORE set point last written to the regulator, in mV (R346, R347). -/
  mv : Option Nat := none
  /-- The cap in use, taken at the start of the interval (R353). -/
  capF : Nat := 38912000
  emergency : Bool := false
  overRun : Nat := 0
  underRun : Nat := 0
  /-- Every P formed in the interval so far exceeds 1.1 × the cap; every one is at or below the cap. -/
  allOver : Bool := true
  allUnder : Bool := true
  /-- Sums of the estimate over the interval, whole and by domain, and their number (R350). -/
  sumF : Nat := 0
  memF : Nat := 0
  linksF : Nat := 0
  senseF : Nat := 0
  compF : Nat := 0
  /-- The compute part by the step it ran at (R358). -/
  compBy : Tbl Nat := []
  cnt : Nat := 0
  /-- Ē_last, B and P of R351. -/
  lastF : Nat := 0
  baseF : Nat := 0
  pF : Int := 0
  bComp : Int := 0
  bMem : Int := 0
  dMem : Nat := 0
  disagree : Bool := false
  badRun : Nat := 0
  goodRun : Nat := 0
  /-- A safe step may still come of this disagreement; the safe step is demanded (R352). -/
  armed : Bool := false
  safe : Bool := false
  rails : Tbl Rail := []
  /-- Thermal level 1 with its ceiling, thermal level 2 (R364). -/
  l1 : Bool := false
  ceiling : Nat := 0
  l2 : Bool := false
  /-- Droop detectors that are tripped, and intervals left of the droop demand (R361). -/
  droop : BitVec 16 := 0
  droopLeft : Nat := 0
  /-- Supplies below WARN, and the WARN demand (R362). -/
  below : BitVec 4 := 0
  warn : Option Nat := none
  /-- FIXED_STEP is overridden at present (R360). -/
  lost : Bool := false
  /-- The device bucket of R355. -/
  metered : Bool := false
  memRate : Nat := 0
  memLevel : Nat := 6553600
  /-- Learned compute power of a context's phase, by context × 256 + phase (R359). -/
  hist : Tbl Nat := []
  /-- The last 100 intervals, newest first. -/
  recent : List Interval := []
  /-- 0 ACTIVE, 1 IDLE_RETAIN, 2 DEEP_IDLE; a wake has begun (R366). -/
  idle : Nat := 0
  waking : Bool := false
  deriving DecidableEq, Repr

/-- A user calibration layer (Table 15.6). -/
structure CalLayer where
  seq : Nat
  trims : List Int
  k : Nat
  tables : List Byte
  /-- Its DIGEST (R422). -/
  digest : BitVec 256
  deriving DecidableEq, Repr

/-- A copy of the user layer in the flash: empty, broken, or whole. -/
inductive CalCopy where
  | absent
  | broken
  | layer (l : CalLayer)
  deriving DecidableEq, Repr

/-- Why a health-record copy cannot be used (STC_START_STATUS REC_CODE); 0: its form is good. -/
structure HRec where
  /-- 0, or the first test of MAGIC and VERSION (3), DIGEST (4) and UID (5) that fails. -/
  defect : Nat := 0
  clean : Bool
  seq : Nat
  starts : Nat
  age : Nat
  lbist : BitVec 8 := 0
  mbist : BitVec 8 := 0
  hamper : Bool := false
  /-- State code and REMAIN of units 0 to 47. -/
  units : List (Nat × Nat) := []
  deriving DecidableEq, Repr

/-- A signed image as firmware keeps it (R410). -/
structure Image where
  version : Word := 0
  svn : Nat := 0
  abi : Nat := 0
  roll : Bool := false
  digest : BitVec 256 := 0
  deriving DecidableEq, Repr

/-- The flash and the fuses: kept through every reset (R427, R435). -/
structure Keep where
  /-- The two copies of the health record; none: empty. -/
  recs : Tbl HRec := []
  cal0 : CalCopy := .absent
  cal1 : CalCopy := .absent
  /-- Fuses of the anti-rollback counter set by this device beyond those the part came with (R412). -/
  fuses : Nat := 0
  /-- PM_SUPPLY_LOG and its time, STC_RESET_CAUSE: powered from VDD_AON (R362, R440). -/
  supplyLog : Word := 0
  supplyTime : Dword := 0
  cause : Word := 1
  /-- STRAP0 to STRAP7 as last sampled (R463). -/
  straps : BitVec 8 := 0
  deriving DecidableEq, Repr

/-- Firmware, the security block, start and stop. -/
structure Fw where
  /-- The image in the load area, being verified or copied, and the one staged (R413, R416). -/
  image : Image := {}
  staged : Option Image := none
  /-- Length of the image under verification. -/
  loading : Option Nat := none
  /-- Digest of the pattern pack in use and its version; none: the pack that Flask carries (R342). -/
  packDigest : BitVec 256 := 0
  packVersion : Option Nat := none
  /-- The user layer in force, and the pending change: `some none` is the factory layer (R423). -/
  layer : Option CalLayer := none
  calPending : Option (Option CalLayer) := none
  /-- The trims that the steps now run with (R423). -/
  trims : List Int := []
  /-- Calibration commands that wait for the end of a firmware restart, oldest first: STORE with whether the flash takes the
  write, or READ (R409). -/
  calWait : List (Port × Option Bool) := []
  /-- The seed of the key pair that the security block holds: of the identity key, or of the debug session (R419, R420); none
  before the start and once it is zeroised. -/
  key : Option (BitVec 256) := none
  /-- A debug challenge is outstanding (R421). -/
  chalLive : Bool := false
  /-- Firmware restarts in the last 60 s, by TCLK edge (R415). -/
  restarts : List Nat := []
  /-- Handover conditions have been clear since this TCLK edge (R417). -/
  clearAt : Option Nat := none
  /-- The health record in force: the copy's number and the record; its age counts from the start. -/
  rec_ : Option (Nat × HRec) := none
  ageBase : Nat := 0
  /-- PREPARE_OFF has been accepted, and has completed (R432). -/
  stopping : Bool := false
  stopped : Bool := false
  /-- The boot ROM has run since the reset (R429). -/
  booted : Bool := false
  deriving DecidableEq, Repr

/-- An FSYNC output (R375): the next pulse's number, and the pulse that is active with the TIME of its end; what the START in
force exceeds its 64-bit register by, in 2^64 ns: steps of TIME may carry it below 0 or above (R371). -/
structure Fsync where
  k : Nat := 0
  active : Bool := false
  endAt : Nat := 0
  era : Int := 0
  deriving DecidableEq, Repr

/-- A stamp in an event FIFO (R378). -/
structure Stamp where
  time : Dword
  sub : Nat
  fall : Bool
  deriving DecidableEq, Repr

/-- Compass beside its registers and TIME. -/
structure Cps where
  /-- F, in 2^−32 ns. -/
  frac : Word := 0
  /-- The slew remainder in 2^−32 ns, and the step to be made at the next TCLK edge in ns (R370). -/
  remain : Int := 0
  step : Option Int := none
  /-- I of R372. -/
  integ : Int := 0
  /-- TCLK edge of the last accepted PPS edge, and consecutive accepted edges within LOCK_NS. -/
  lastEdge : Option Nat := none
  lockRun : Nat := 0
  fsync : Tbl Fsync := []
  fifo : Tbl (List Stamp) := []
  /-- TCLK edge and TIME of PPS_OUT's last rising edge (R371, R377). -/
  ppsTick : Option Nat := none
  /-- TCLK edge at which the pulse of PPS_OUT ends; the message that SYNC_OUT sends, with its first edge and its bit rate
  (R377). -/
  ppsOff : Option Nat := none
  syncMsg : Option (Nat × Nat × List Byte) := none
  ppsTime : Dword := 0
  /-- The whole second that PPS_OUT next marks. -/
  ppsNext : Nat := 1
  /-- A SYNC_OUT message is due for the last pulse, and the messages sent. -/
  syncDue : Bool := false
  syncSeq : Nat := 0
  deriving DecidableEq, Repr

end Sys2Proof.Machine
end

