-- ==== Sys2Proof/Machine/State.lean ====
section
/-! DEFINITION. The state of the QS8 as plain data, and the state after reset. -/

namespace Sys2Proof.Machine

/-- A store that may not be visible to every agent yet (R21, R22): its writer, the number of the DMA descriptor that made
it plus 1 (0: no descriptor), the count of commands at it, and the byte before it. -/
structure Unseen where
  who : Nat
  ser : Nat
  at_ : Nat
  old : Byte
  deriving DecidableEq, Repr

/-- The device: everything a snapshot can latch. -/
structure Dev where
  /-- Free values drawn so far: the model's own counter. -/
  ctr   : Nat := 0
  /-- Resets and DEEP_IDLE losses so far: undefined contents are a function of it (the model's own counter). -/
  epoch : Nat := 0
  /-- Registers that hold a value other than their reset value, by offset (a per-port copy of HP-B at 2^25 above). -/
  regs  : Tbl Word := []
  /-- Device memory: core memories, Hamper, LPDDR6. -/
  mem   : Tbl Byte := []
  /-- Uncorrectable words or units, by first address (R186, R189). -/
  poison : List Nat := []
  /-- Stores to a byte that may not be visible to every agent yet, newest first (R21, R22). -/
  stale : Tbl (List Unseen) := []
  /-- Memory whose contents have been lost (R337, R366), newest loss first: base, length, and the count of commands at the
  loss. -/
  lost  : List (Nat × Nat × Nat) := []
  /-- 48 GiB fitted, not 96 GiB (R17, R187). -/
  cap48 : Bool := false
  cores : Tbl Core := []
  jobs  : Tbl Job := []
  /-- Context bucket levels in 0.01 byte (R203), and the core that last issued against each (R204). -/
  ctxLevel : Tbl Nat := []
  ctxLast  : Tbl Nat := []
  /-- Context bucket RATE and BURST registers, by context (R208). -/
  ctxRate  : Tbl Nat := []
  ctxBurst : Tbl Nat := []
  /-- Accepted RATE and BURST writes that take effect at the next TCLK edge (R205), oldest first: target (a core, or 8 + a
  context), whether BURST, value. -/
  bwrPend : List (Nat × Bool × Nat) := []
  /-- ACLK cycles since reset, in sixteenths (R13, Table 4.5). -/
  cyc16 : Nat := 0
  /-- TCLK edges since reset. -/
  ticks : Nat := 0
  /-- TIME of Compass (R368). -/
  time  : Dword := 0
  /-- Host event flags, 32 to a word (R304). -/
  flags : Tbl Word := []
  queues : Tbl Queue := []
  ctxs  : Tbl Ctx := []
  /-- Owner ports by class × 65,536 + index (Table 10.1). -/
  owners : Tbl Port := []
  sems  : Tbl Sem := []
  ports : Tbl PortSt := []
  commit : Option Pending := none
  /-- Doorbells that made entries visible, counted (R300). -/
  bells : Nat := 0
  units : Tbl HUnit := []
  /-- Fault log, record number mod 256 (Table 11.6). -/
  flog  : Tbl (BitVec 256) := []
  pm    : Pm := {}
  fw    : Fw := {}
  /-- Flash, fuses and what VDD_AON powers: kept through every reset. -/
  keep  : Keep := {}
  cps   : Cps := {}
  fab   : Fab := {}
  med   : Media := {}
  /-- REFCLK has been lost: nothing is defined until PORST_N (R470). -/
  refLost : Bool := false
  /-- A thermal trip has stopped the clocks until PORST_N (R365). -/
  tripped : Bool := false
  out   : List Out := []
  deriving DecidableEq, Repr

/-- A port's snapshot (R32): the latched device of the last complete capture, and of the capture in progress. -/
structure Snap where
  ready  : Option Dev := none
  taking : Option Dev := none
  deriving DecidableEq, Repr

/-- The block: the device, the two ports' snapshots, and the commands that wait, first in, first out. -/
structure State where
  dev     : Dev := {}
  snapA   : Snap := {}
  snapB   : Snap := {}
  pending : List Instr := []
  deriving DecidableEq, Repr

/-- Why the block stops. -/
inductive Fault where
  /-- REFCLK has been lost and PORST_N has not been asserted since (R470): the state is undefined. Raised by every command
  but COLD_RESET and REFCLK_LOSS in that state. Safe: nothing is claimed of what the device does then. -/
  | refclkLost
  deriving DecidableEq, Repr

/-- Why a command has no meaning. -/
inductive Refusal where
  /-- The command has no meaning in the model. Raised by no arm that has a meaning. Safe: it stops. -/
  | notModelled (mnemonic : String)
  deriving DecidableEq, Repr

/-- The block right after reset, its queue of commands empty. -/
def State.reset : State := {}

end Sys2Proof.Machine
end

