-- ==== Sys2Proof/Machine/Ops.lean ====
section
/-! DEFINITION. The named operations over registers, memory, flags and gangs that every meaning uses. -/

namespace Sys2Proof.Machine

/-! ### Commands -/

/-- The outcome of a command whose effect on the device is `f`. After a loss of REFCLK nothing is defined until PORST_N
(R470). After a thermal trip every clock outside the always-on domain is stopped (R365), so nothing happens. -/
def act (s : State) (f : Dev → Dev) : Host.Outcome State Fault Refusal :=
  if s.dev.refLost then .fault .refclkLost
  else if s.dev.tripped then .next s
  else .next { s with dev := { f s.dev with ctr := s.dev.ctr + 1 } }

/-- The same of a command that also concerns the ports' snapshots; the queue of commands stays as it is. -/
def actAll (s : State) (f : State → State) : Host.Outcome State Fault Refusal :=
  if s.dev.refLost then .fault .refclkLost
  else if s.dev.tripped then .next s
  else .next { f s with dev := { (f s).dev with ctr := s.dev.ctr + 1 }, pending := s.pending }

/-! ### Registers -/

/-- The registers that exist once per host port (R451, Table 17.2). -/
def perPort (off : Nat) : Bool :=
  (decide (0x100 ≤ off) && decide (off < 0x10000)) ||
  (decide (0x100100 ≤ off) && decide (off < 0x200000)) ||
  off = Reg.STC_FLOG_RADDR || off = Reg.STC_FTEST_SEL || off = Reg.PM_PHASE_SEL ||
  off = Reg.CPS_ADJ_LO || off = Reg.CPS_ADJ_HI ||
  off = Reg.FW_CAL_ADDR_LO || off = Reg.FW_CAL_ADDR_HI || off = Reg.FW_CAL_STATUS

/-- The size of the register space, 32 MiB (R441). -/
def regSpace : Nat := 0x2000000

/-- Where a port's copy of a register is kept. -/
def regKey (p : Port) (off : Nat) : Nat := if perPort off then off + p.idx * regSpace else off

/-- The word an unwritten register holds: the reset values of the register tables (R8), and the part's identity. -/
def resetReg (off : Nat) : Word :=
  if off = Reg.GLB_DEVICE_ID then 0x5A080000 ||| (Config.stepping.setWidth 32 <<< 8)
  else if off = Reg.GLB_UID_LO then Config.uid.setWidth 32
  else if off = Reg.GLB_UID_HI then (Config.uid >>> 32).setWidth 32
  else if off = Reg.FW_ROM_VERSION then Config.romVersion
  else if Reg.STC_HEALTH_CCn 0 ≤ off ∧ off < Reg.STC_HEALTH_CCn 8 then 0
  else match regRow? off with
    | some r => r.resetWord
    | none => 0

/-- The stored word of a register, by its key. -/
def Dev.word (d : Dev) (key : Nat) : Word := Tbl.getD d.regs key (resetReg (key % regSpace))

/-- The stored word of a register of which one copy exists. -/
def Dev.reg (d : Dev) (off : Nat) : Word := d.word off

/-- The stored word of a port's copy of a register. -/
def Dev.regP (d : Dev) (p : Port) (off : Nat) : Word := d.word (regKey p off)

def Dev.setReg (d : Dev) (off : Nat) (v : Word) : Dev := { d with regs := Tbl.set d.regs off v }
def Dev.setRegP (d : Dev) (p : Port) (off : Nat) (v : Word) : Dev := d.setReg (regKey p off) v

/-- Read and write a field of a register. -/
def Dev.fld (d : Dev) (off : Nat) (f : Fld) : Nat := f.get (d.reg off)
def Dev.fldP (d : Dev) (p : Port) (off : Nat) (f : Fld) : Nat := f.get (d.regP p off)
def Dev.setFld (d : Dev) (off : Nat) (f : Fld) (v : Nat) : Dev := d.setReg off (f.put (d.reg off) v)
def Dev.setFldP (d : Dev) (p : Port) (off : Nat) (f : Fld) (v : Nat) : Dev := d.setRegP p off (f.put (d.regP p off) v)

/-- Set a one-bit field. -/
def Dev.raise (d : Dev) (off : Nat) (f : Fld) : Dev := d.setFld off f 1

/-- A counter that wraps, a counter that saturates. -/
def Dev.addReg (d : Dev) (off n : Nat) : Dev := d.setReg off (BitVec.ofNat 32 ((d.reg off).toNat + n))
def Dev.satReg (d : Dev) (off n : Nat) : Dev := d.setReg off (BitVec.ofNat 32 (sat32 ((d.reg off).toNat + n)))

/-- The value of a register pair with its _LO half at `lo` and its _HI half at `hi`. -/
def Dev.reg64 (d : Dev) (lo hi : Nat) : Nat := (d.reg lo).toNat + (d.reg hi).toNat * pow2 32
def Dev.setReg64 (d : Dev) (lo hi v : Nat) : Dev :=
  (d.setReg lo (BitVec.ofNat 32 v)).setReg hi (BitVec.ofNat 32 (v / pow2 32))
def Dev.add64 (d : Dev) (lo hi n : Nat) : Dev := d.setReg64 lo hi (d.reg64 lo hi + n)

/-! ### The address map -/

def lpBytes (cap48 : Bool) : Nat := if cap48 then 0xC00000000 else 0x1800000000
def hamperBase : Nat := 0x2000000000
def coreBase (n : Nat) : Nat := 0x2100000000 + n * 0x1000000

def isLp (cap48 : Bool) (a : Nat) : Bool := decide (a < lpBytes cap48)
def isHamper (a : Nat) : Bool := decide (hamperBase ≤ a ∧ a < hamperBase + 0x4000000)
def isCoreMem (a : Nat) : Bool := decide (coreBase 0 ≤ a ∧ a < coreBase 8)
def inCore (n a : Nat) : Bool := decide (coreBase n ≤ a ∧ a < coreBase n + 0x1000000)

/-- The mapped addresses of Table 1.5 outside the register space (R16, R17, R442). -/
def mapped (cap48 : Bool) (a : Nat) : Bool := isLp cap48 a || isHamper a || isCoreMem a

/-- The reserved regions of R18. -/
def reservedAddr (cap48 : Bool) (a : Nat) : Bool :=
  decide (hamperBase + 0x3800000 ≤ a ∧ a < hamperBase + 0x4000000) ||
  decide (lpBytes cap48 - 0x10000000 ≤ a ∧ a < lpBytes cap48)

/-- An address that programs, descriptors and BAR2 may use (R19). -/
def Dev.usable (d : Dev) (a : Nat) : Bool := mapped d.cap48 a && !reservedAddr d.cap48 a

/-- The regions of usable memory as half-open intervals. -/
def Dev.regions (d : Dev) : List (Nat × Nat) :=
  [(0, lpBytes d.cap48 - 0x10000000), (hamperBase, hamperBase + 0x3800000), (coreBase 0, coreBase 8)]

/-- The first byte of [a, a + n) that is not usable, or none. -/
def Dev.firstBad (d : Dev) (a n : Nat) : Option Nat :=
  if n = 0 then none
  else match d.regions.find? (fun r => decide (r.1 ≤ a ∧ a < r.2)) with
    | none => some a
    | some r => if a + n ≤ r.2 then none else some r.2

/-! ### Cores, jobs, ports -/

def Dev.core (d : Dev) (n : Nat) : Core := Tbl.getD d.cores n {}
def Dev.setCore (d : Dev) (n : Nat) (c : Core) : Dev := { d with cores := Tbl.set d.cores n c }
def Dev.updCore (d : Dev) (n : Nat) (f : Core → Core) : Dev := d.setCore n (f (d.core n))

def Dev.job? (d : Dev) (leader : Nat) : Option Job := Tbl.find? d.jobs leader
def Dev.setJob (d : Dev) (leader : Nat) (j : Job) : Dev := { d with jobs := Tbl.set d.jobs leader j }
def Dev.updJob (d : Dev) (leader : Nat) (f : Job → Job) : Dev :=
  match d.job? leader with
  | some j => d.setJob leader (f j)
  | none => d

/-- The job that a core runs, with its gang's leader. -/
def Dev.jobOf (d : Dev) (n : Nat) : Option (Nat × Job) :=
  match (d.core n).gang with
  | some l => (d.job? l).map (fun j => (l, j))
  | none => none

def Dev.port (d : Dev) (p : Port) : PortSt := Tbl.getD d.ports p.idx {}
def Dev.updPort (d : Dev) (p : Port) (f : PortSt → PortSt) : Dev :=
  { d with ports := Tbl.set d.ports p.idx (f (d.port p)) }

def Dev.queue (d : Dev) (q : Nat) : Queue := Tbl.getD d.queues q {}
def Dev.updQueue (d : Dev) (q : Nat) (f : Queue → Queue) : Dev :=
  { d with queues := Tbl.set d.queues q (f (d.queue q)) }

def Dev.sem (d : Dev) (n : Nat) : Sem := Tbl.getD d.sems n {}

/-- The port holds SEM0 (R287). -/
def Dev.holdsSem0 (d : Dev) (p : Port) : Bool := decide ((d.sem 0).holder = some p)

def Dev.unit (d : Dev) (u : Nat) : HUnit := Tbl.getD d.units u {}
def Dev.updUnit (d : Dev) (u : Nat) (f : HUnit → HUnit) : Dev := { d with units := Tbl.set d.units u (f (d.unit u)) }

/-! ### Owners (R288) -/

def ownKey (cls idx : Nat) : Nat := cls * 65536 + idx

/-- The owner of an object; queue 0 is always HP-A's and queue 1 HP-B's (Table 10.1). -/
def Dev.owner (d : Dev) (cls idx : Nat) : Option Port :=
  if cls = 0 ∧ idx = 0 then some .a
  else if cls = 0 ∧ idx = 1 then some .b
  else Tbl.find? d.owners (ownKey cls idx)

def Dev.setOwner (d : Dev) (cls idx : Nat) (p : Port) : Dev := { d with owners := Tbl.set d.owners (ownKey cls idx) p }

/-! ### Health events (R322, R323) -/

/-- The states of a core's units. -/
def Dev.unitSt (d : Dev) (u : Nat) : Health := (d.unit u).st
def Dev.fencedArrays (d : Dev) (n : Nat) : Nat :=
  ((List.range 4).filter (fun k => d.unitSt (6 * n + k) = .fenced)).length
def Dev.logicFenced (d : Dev) (n : Nat) : Bool := d.unitSt (6 * n + 4) = .fenced
def Dev.memFenced (d : Dev) (n : Nat) : Bool := d.unitSt (6 * n + 5) = .fenced

/-- The pair partner of a core (R330). -/
def partner (n : Nat) : Nat := if n % 2 = 0 then n + 1 else n - 1

/-- An unavailable core (R331). -/
def Dev.unavailable (d : Dev) (n : Nat) : Bool :=
  d.memFenced n || (d.logicFenced n && d.logicFenced (partner n))

/-- The throughput factor in percent (R329, R330, R331). -/
def Dev.factor (d : Dev) (n : Nat) : Nat :=
  if d.unavailable n then 0
  else if d.logicFenced n || d.logicFenced (partner n) then 50
  else if 0 < d.fencedArrays n then 60
  else 100

/-- Core n's logic is to be hosted by its partner, as the units' states stand (R330). -/
def Dev.logicHosted (d : Dev) (n : Nat) : Bool := d.logicFenced n && !d.logicFenced (partner n)

/-- The arrays of core n that are to be hosted by their neighbours, as the units' states stand (R329). -/
def Dev.arraysHosted (d : Dev) (n : Nat) : BitVec 4 :=
  BitVec.ofNat 4 (((List.range 4).filter (fun k => d.unitSt (6 * n + k) = .fenced)).foldl (fun m k => m + pow2 k) 0)

/-- The fences take effect for a core of a gang: when the gang is bound, and at the start of a replay (R332). -/
def Dev.setHosting (d : Dev) (n : Nat) : Dev :=
  d.updCore n (fun c => { c with hostedLogic := d.logicHosted n, hostedArrays := d.arraysHosted n })

/-- The physical core that executes core n's logical work (R330, R332). -/
def Dev.hostOf (d : Dev) (n : Nat) : Nat :=
  if (if (d.core n).gang.isSome then (d.core n).hostedLogic else d.logicHosted n) then partner n else n

/-- The unit in which a fault of core n's logical array `k` (0 to 3) or logic (4) lies: the one that does the work (Table 11.1,
R329, R330). -/
def Dev.physUnit (d : Dev) (n k : Nat) : Nat :=
  if k < 4 then 6 * n + (if bit (d.core n).hostedArrays.toNat k then (if k % 2 = 0 then k + 1 else k - 1) else k)
  else 6 * d.hostOf n + 4

def healthCode : Health → Nat
  | .healthy => 0
  | .observed => 1
  | .fenced => 2

/-- The fields of a fault-log record (Table 11.6). -/
structure FaultRec where
  kind : Nat
  unit : Nat
  outcome : Nat := 3
  replay : Nat := 0
  ctx : Nat := 0
  queue : Nat := 0
  count : Nat := 0
  d0 : Nat := 0
  d1 : Nat := 0
  d2 : Nat := 0
  deriving DecidableEq, Repr

/-- Write one fault-log record (Table 11.6, STC_FLOG_WPTR). -/
def Dev.logFault (d : Dev) (r : FaultRec) : Dev :=
  let st := if r.unit < 48 then healthCode (d.unitSt r.unit) else 0
  let w0 := r.kind + r.unit * pow2 8 + st * pow2 14 + r.outcome * pow2 16 + r.replay * pow2 18
  let w1 := r.ctx + r.queue * pow2 16
  let x := w0 + w1 * pow2 32 + (r.count % pow2 32) * pow2 64 + (r.d0 % pow2 32) * pow2 96 +
    (r.d1 % pow2 32) * pow2 128 + (r.d2 % pow2 32) * pow2 160 + d.time.toNat * pow2 192
  let i := (d.reg Reg.STC_FLOG_WPTR).toNat
  ({ d with flog := Tbl.set d.flog (i % 256) (BitVec.ofNat 256 x) }).addReg Reg.STC_FLOG_WPTR 1

/-- 72 hours in seconds (R323). -/
def observedTime : Nat := 259200

/-- A unit becomes FENCED: the health record in the flash is behind (R324). -/
def Dev.fenceUnit (d : Dev) (u : Nat) : Dev :=
  (d.updUnit u (fun h => { h with st := .fenced, confirm := false })).raise Reg.STC_HEALTH_SUM Fld.STC_HEALTH_SUM_RECORD_DIRTY

/-- The core logic is fenced once two of the core's arrays are (R329). -/
def Dev.logicDue (d : Dev) (n : Nat) : Bool := decide (2 ≤ d.fencedArrays n) && !d.logicFenced n

/-- The transition of Table 11.2 that an event of Table 11.1 causes, its count and its record `r`; the core logic that
follows a second fenced array, with its own record after that one (R329, R344). -/
def Dev.unitEvent (d : Dev) (u : Nat) (r : FaultRec) : Dev :=
  let d := d.satReg Reg.STC_DETECTIONS 1
  if 48 ≤ u then d.logFault r
  else
    let d := (match d.unitSt u with
      | .healthy => d.updUnit u (fun h => { h with st := .observed, remain := observedTime, confirm := true })
      | .observed => d.fenceUnit u
      | .fenced => d).logFault r
    if u % 6 < 4 && d.unitSt u = .fenced && d.logicDue (u / 6) then
      let k := 6 * (u / 6) + 4
      (d.fenceUnit k).logFault { kind := 8, unit := k, d2 := healthCode (d.unitSt k) }
    else d

/-- The unit an address belongs to (Table 11.1): a core memory, 48 the Hamper, 49 LPDDR6. -/
def addrUnit (a : Nat) : Nat :=
  if isCoreMem a then 6 * ((a - coreBase 0) / 0x1000000) + 5 else if isHamper a then 48 else 49

/-- An uncorrectable error at an address: the event of Table 11.1 and its record (KIND 5); one that a job meets fails it,
OUTCOME 1 (R344). -/
def Dev.eccEvent (d : Dev) (job : Option (Nat × Job)) (u a : Nat) : Dev :=
  let r : FaultRec := { kind := 5, unit := u, d0 := a % pow2 32, d1 := a / pow2 32 }
  let r := match job with
    | some (_, j) => { r with outcome := 1, ctx := j.ctx, queue := j.queue, count := j.count }
    | none => r
  d.unitEvent u r

/-- Corrected errors, `n` of them, the last at address `a` (R186, Table 11.1): STC_ECC_CORR, and the threshold event of the
unit in its 24-hour window; errors of the Hamper and of LPDDR6 are logged. -/
def Dev.corrected (d : Dev) (u n a : Nat) : Dev :=
  let d := d.satReg Reg.STC_ECC_CORR n
  let r : FaultRec := { kind := 4, unit := u, d0 := a % pow2 32, d1 := a / pow2 32, d2 := n }
  if 48 ≤ u then d.logFault r
  else
    let old := (d.unit u).corr
    let lim := if u % 6 = 5 then 256 else 16
    let d := d.updUnit u (fun h => { h with corr := old + n })
    if old < lim ∧ lim ≤ old + n then
      d.unitEvent u { r with d2 := old + n }
    else d

/-! ### Memory -/

/-- The canonical form of memory: rising addresses, and no listed byte equal to what an unlisted address reads as. -/
def Memory.wf (blank : Nat → Byte) : Tbl Byte → Bool
  | [] => true
  | [(a, b)] => decide (b ≠ blank a)
  | (a, b) :: (c, x) :: t => decide (b ≠ blank a) && decide (a < c) && Memory.wf blank ((c, x) :: t)

/-- What a byte that nothing has written since reset or since its loss reads as. -/
def Dev.blank (d : Dev) (a : Nat) : Byte :=
  match d.lost.find? (fun r => decide (r.1 ≤ a ∧ a < r.1 + r.2.1)) with
  | some r => Config.lostByte r.2.2 a
  | none => 0

/-- A byte of memory as it stands. -/
def Dev.byte (d : Dev) (a : Nat) : Byte := Tbl.getD d.mem a (d.blank a)

/-- The memory of a device is in its canonical form. -/
def Dev.memWf (d : Dev) : Bool := Memory.wf d.blank d.mem

/-- Memory whose contents become undefined until it is written. -/
def Dev.lose (d : Dev) (a n : Nat) : Dev :=
  let out (x : Nat) : Bool := decide (x < a ∨ a + n ≤ x)
  { d with mem := Tbl.restrict d.mem out, stale := Tbl.restrict d.stale out, lost := (a, n, d.ctr) :: d.lost }

/-- Agents that write or read memory: 0 to 7 the cores, 8 to 15 their DMA engines, 16 and 17 the host ports, 18 the fabric,
19 firmware and the QM, from 32 on the media engines' streams. -/
abbrev Agent := Nat

def agentCore (n : Nat) : Agent := n
def agentDe (n : Nat) : Agent := 8 + n
def agentHost (p : Port) : Agent := 16 + p.idx
def agentFab : Agent := 18
def agentFw : Agent := 19
def agentStream (n : Nat) : Agent := 32 + n
def agentMjob (m : Nat) : Agent := 64 + m
def agentDctx (n : Nat) : Agent := 128 + n
def agentEctx (n : Nat) : Agent := 192 + n
def agentBstr (n : Nat) : Agent := 256 + n

/-- The agent `ag` sees a store to address `a` for certain: it is its own, or that of the core whose DMA engine it is (R20);
or it has come to see it, which it does word by word (R24) and for good. -/
def Unseen.seen (u : Unseen) (ctr : Nat) (ag : Agent) (ser a : Nat) : Bool :=
  (u.who = ag && u.ser = ser) || (8 ≤ ag && ag < 16 && u.who = ag - 8) || decide (Config.seenAt u.at_ ag (a / 8) ≤ ctr)

/-- The byte that is left of a byte's stores for an agent: the newest that it sees, or the byte before all of them. -/
def seenByte (ctr : Nat) (ag : Agent) (ser a : Nat) : Byte → List Unseen → Byte
  | b, [] => b
  | b, u :: t => if u.seen ctr ag ser a then b else seenByte ctr ag ser a u.old t

/-- A byte as an agent reads it, or one descriptor of a DMA engine (`ser`): another's store that is not yet visible may or
may not be seen (R21, R22). -/
def Dev.see (d : Dev) (ag : Agent) (a : Nat) (ser : Nat := 0) : Byte :=
  seenByte d.ctr ag ser a (d.byte a) (Tbl.getD d.stale a [])

/-- `n` bytes from address `a`, as an agent reads them. -/
def Dev.bytes (d : Dev) (ag : Agent) (a n : Nat) : List Byte := (List.range n).map (fun i => d.see ag (a + i))

/-- Bytes as a little-endian number (R5). -/
def leNat : List Byte → Nat
  | [] => 0
  | b :: t => b.toNat + 256 * leNat t

/-- The `n` low bytes of a number, little-endian (R5). -/
def leBytes : Nat → Nat → List Byte
  | 0, _ => []
  | n + 1, x => BitVec.ofNat 8 x :: leBytes n (x / 256)

/-- The 32-bit word at byte offset `off` of a byte string. -/
def wordAt (l : List Byte) (off : Nat) : Nat := leNat ((l.drop off).take 4)

/-- The byte at an offset of a byte string. -/
def byteAt (l : List Byte) (off : Nat) : Nat := ((l.drop off).head?.getD 0).toNat

/-- The ECC word or unit that holds an address: its first address and its size (R186, R188). -/
def eccBase (a : Nat) : Nat := if a < hamperBase then a / 32 * 32 else a / 8 * 8
def eccSize (a : Nat) : Nat := if a < hamperBase then 32 else 8

/-- The first byte of [a, a + n) that lies in an uncorrectable word, or none. -/
def Dev.poisoned (d : Dev) (a n : Nat) : Option Nat :=
  d.poison.foldl (fun acc u =>
    if u < a + n ∧ a < u + eccSize u then
      let x := Nat.max u a
      match acc with
      | some y => some (Nat.min x y)
      | none => some x
    else acc) none

/-- An entry lies between a consumer count and a producer count. -/
def countAhead (cons prod : Word) : Bool := decide (0 < (prod - cons).toNat ∧ (prod - cons).toNat < pow2 31)

/-- Data bytes counted by MC_RD_BYTES and MC_WR_BYTES: whole 32-byte units of LPDDR6. -/
def lpUnits (d : Dev) (a n : Nat) : Nat :=
  if n = 0 ∨ !isLp d.cap48 a then 0 else ((a + n - 1) / 32 - a / 32 + 1) * 32

def Dev.countRd (d : Dev) (a n : Nat) : Dev :=
  let u := lpUnits d a n
  if u = 0 then d else d.add64 Reg.MC_RD_BYTES_LO Reg.MC_RD_BYTES_HI u

/-- LPDDR6 bytes read by the read-modify-writes of a write of [a, a + n) (R189). -/
def rmwUnits (d : Dev) (a n : Nat) : Nat :=
  if n = 0 ∨ !isLp d.cap48 a then 0
  else
    let first := a / 32
    let last := (a + n - 1) / 32
    let p1 := b2n (decide (a % 32 ≠ 0 ∨ (a + n < (first + 1) * 32)))
    let p2 := b2n (decide (last ≠ first ∧ (a + n) % 32 ≠ 0))
    (p1 + p2) * 32

def Dev.countWr (d : Dev) (a n : Nat) : Dev :=
  let u := lpUnits d a n
  let r := rmwUnits d a n
  let d := if u = 0 then d else d.add64 Reg.MC_WR_BYTES_LO Reg.MC_WR_BYTES_HI u
  if r = 0 then d else d.add64 Reg.MC_RD_BYTES_LO Reg.MC_RD_BYTES_HI r

/-- Write one byte of memory in its canonical form. -/
def Dev.putByte (d : Dev) (a : Nat) (b : Byte) : Dev := { d with mem := Tbl.put (d.blank a) d.mem a b }

/-- Write one byte as an agent: until the agent's next point of visibility others may still read the byte before it. -/
def Dev.storeByte (d : Dev) (ag : Agent) (a : Nat) (b : Byte) (ser : Nat := 0) : Dev :=
  let u : Unseen := { who := ag, ser := ser, at_ := d.ctr, old := d.byte a }
  ({ d with stale := Tbl.set d.stale a (u :: Tbl.getD d.stale a []) }).putByte a b

def Dev.storeList (d : Dev) (ag : Agent) : Nat → List Byte → Dev
  | _, [] => d
  | a, b :: t => (d.storeByte ag a b).storeList ag (a + 1) t

/-- A write that covers whole uncorrectable words clears them; one that covers part leaves the poison code (R186, R189). -/
def Dev.cleanPoison (d : Dev) (a n : Nat) : Dev :=
  { d with poison := d.poison.filter (fun u => !decide (a ≤ u ∧ u + eccSize u ≤ a + n)) }

/-- A write that covers part of an uncorrectable word reads it first: an uncorrectable error of the unit that holds it
(R186, R189, Table 11.1). -/
def Dev.partialEvents (d : Dev) (ag : Agent) (a n : Nat) : Dev :=
  (d.poison.filter (fun u => decide (u < a + n ∧ a < u + eccSize u) && !decide (a ≤ u ∧ u + eccSize u ≤ a + n))).foldl
    (fun d u => d.eccEvent (if ag < 16 then d.jobOf (ag % 8) else none) (addrUnit u) u) d

/-- Write a byte string as an agent. -/
def Dev.store (d : Dev) (ag : Agent) (a : Nat) (l : List Byte) : Dev :=
  (((d.partialEvents ag a l.length).cleanPoison a l.length).countWr a l.length).storeList ag a l

/-- The stores that `p` picks become visible to every agent, and with each the older stores to its byte. -/
def Dev.releaseIf (d : Dev) (p : Unseen → Bool) : Dev :=
  { d with stale := (d.stale.map (fun e => (e.1, e.2.takeWhile (fun u => !p u)))).filter (fun e => !e.2.isEmpty) }

/-- The agent's earlier stores become visible to every agent (R21, R22, R23). -/
def Dev.release (d : Dev) (ag : Agent) : Dev := d.releaseIf (fun u => u.who = ag)

/-- A write that is visible at once. -/
def Dev.storeNow (d : Dev) (a : Nat) (l : List Byte) : Dev := (d.store agentFw a l).release agentFw

/-- Ranges that a job of core n has written outside the core's own memory (R337). -/
def Dev.noteOuts (d : Dev) (n : Nat) (l : List (Nat × Nat)) : Dev :=
  let out := l.filter (fun r => decide (0 < r.2) && !(inCore n r.1 && inCore n (r.1 + r.2 - 1)))
  if out = [] then d
  else d.updCore n (fun c => { c with outs := out.foldl (fun o r => if o.contains r then o else r :: o) c.outs })

/-! ### Gangs and halts -/

/-- The byte offset of bundle i (R114). -/
def pcOf (tagged : Bool) (i : Nat) : Nat := if tagged then 256 * (i / 7) + 32 * (i % 7 + 1) else 32 * i

/-- The tag of bundle `i` of a job (R115): of the leader's cached block, or of the block in memory; 0 in plain encoding and
beyond the code. -/
def Dev.codeTag (d : Dev) (l : Nat) (j : Job) (i : Nat) : Word :=
  let pc := pcOf true i
  if !j.tagged || j.codeLen ≤ pc then 0
  else
    let blk := j.code + pc / 256 * 256
    match Tbl.find? (d.core l).icache blk with
    | some b => b.extractLsb' (32 * (pc / 32 % 8)) 32
    | none => BitVec.ofNat 32 (((List.range 4).map (fun k => (d.byte (blk + 4 * (pc / 32 % 8) + k)).toNat * pow2 (8 * k))).foldl (· + ·) 0)

/-- The oldest unretired bundle of a member, in issue, in its queue or still to be broadcast: its index and tag. -/
def Dev.oldest (d : Dev) (n : Nat) : Nat × Word :=
  let c := d.core n
  match c.older, c.cur, c.iq with
  | b :: _, _, _ => (b.q.idx, b.q.tag)
  | [], some b, _ => (b.q.idx, b.q.tag)
  | [], none, b :: _ => (b.idx, b.tag)
  | [], none, [] =>
    (c.next, match d.jobOf n with
      | some (l, j) => d.codeTag l j c.next
      | none => 0)

/-- The codes of Table 4.6 and Table 5.2. -/
def HaltReason.code : HaltReason → Nat
  | .illegalOpcode => 0x01 | .reservedField => 0x02 | .slotConflict => 0x03 | .divergentBranch => 0x04
  | .addressRange => 0x05 | .misaligned => 0x06 | .formatMismatch => 0x07 | .loopDepth => 0x08
  | .flagUndeclared => 0x09 | .arrayState => 0x0A | .outlierLimit => 0x0B | .breakpoint => 0x0C
  | .haltAtCount => 0x0D | .eccUncorrectable => 0x0E | .stallWatchdog => 0x0F | .nonReplayableFault => 0x10
  | .tagLine => 0x11 | .loopState => 0x12 | .regUnset => 0x13 | .hostHalt => 0x14
  | .feedLeftover => 0x20 | .descField => 0x21 | .localFlag => 0x22 | .countRange => 0x23 | .endInLoop => 0x24
  | .nmsCount => 0x25

/-- The debug halts, after which the job stays pending (R125). -/
def HaltReason.isDebug : HaltReason → Bool
  | .breakpoint | .haltAtCount | .hostHalt => true
  | _ => false

/-- The slot number that halt and Trail records hold for "none" (Tables 4.8, 4.9). -/
def noSlot : Nat := 15

/-- Write one member's halt record (R124, Table 4.9). -/
def Dev.haltRecord (d : Dev) (n logical : Nat) (j : Job) (r : HaltReason) (slot aux : Nat) (peer : Bool)
    (at_ : Nat × Word) : Dev :=
  let info := r.code + slot * pow2 8 + b2n peer * pow2 12 + b2n j.tagged * pow2 13 + j.ctx * pow2 16 + logical * pow2 26
  let d := d.setReg (Reg.CCn_HALT_INFO n) (BitVec.ofNat 32 info)
  let d := d.setReg (Reg.CCn_HALT_PC n) (BitVec.ofNat 32 (pcOf j.tagged at_.1))
  let d := d.setReg (Reg.CCn_HALT_TAG n) at_.2
  let d := d.setReg64 (Reg.CCn_HALT_AUX_LO n) (Reg.CCn_HALT_AUX_HI n) aux
  d.setReg64 (Reg.CCn_HALT_RETIRED_LO n) (Reg.CCn_HALT_RETIRED_HI n) (d.core n).retired.toNat

/-- CYCLE_LO as a Trail record holds it. -/
def Dev.cycles (d : Dev) : Nat := d.cyc16 / 16

/-- Members of a job with their logical indices. -/
def Job.indexed (j : Job) : List (Nat × Nat) := (List.range j.members.length).zip j.members

/-- Entries of a queue that run. -/
def Queue.running (x : Queue) : Nat := (x.entries.filter (fun (e : Entry) => e.started && e.result.isNone)).length

/-- Note how an entry ended; its completion awaits delivery in queue order (R303). A DRAINING queue whose last running job
has ended is PARKED (Table 10.6). -/
def Dev.finish (d : Dev) (q count : Nat) (r : JobResult) : Dev :=
  d.updQueue q (fun x =>
    let x := { x with entries := x.entries.map (fun (e : Entry) =>
      if e.count = count ∧ e.result = none then { e with result := some r } else e) }
    if x.state = .draining ∧ x.running = 0 then { x with state := .parked } else x)

/-- A core leaves its gang: what belongs to a running job goes, storage stays. -/
def Core.leave (c : Core) (halted : Bool) : Core :=
  { c with gang := none, halted := halted, iq := [], cur := none, older := [], scalarRep := none, syncRep := none,
           atBar := false, atLayer := false, layerEnd := false, layerNr := false, waiting := none,
           branchTo := none, taken := false, mq := [], stream := none, drains := [], feedMain := [],
           feedSide := [], feedSrc := [], acc := c.acc.map (fun e => (e.1, { e.2 with open_ := false })), de := {}, held := none, granted := 0, disarm := none, outs := [],
           hostedLogic := false, hostedArrays := 0 }

/-- Table 10.5. -/
def stDone : Nat := 0x0000
def stDoneReplayed : Nat := 0x0001
def stDoneDegraded : Nat := 0x0002
def stProgramHalt : Nat := 0x0100
def stTimeout : Nat := 0x0101
def stDeadlock : Nat := 0x0102
def stNotOwner : Nat := 0x0103
def stNoCapacity : Nat := 0x0104
def stUnrecovered : Nat := 0x0105
def stCancelled : Nat := 0x0106
def stBadEntry : Nat := 0x0107
def stOrphan : Nat := 0x0108

/-- The voltage of a step in mV: the factory set point and the trim of the layer that the steps run with (R346, R422). -/
def Dev.vset (d : Dev) (s : Nat) : Nat := ((Config.vf s : Int) + d.fw.trims.getD s 0).toNat

/-- A compute power scaled from step `s` to step `t` as f × V² (R358). -/
def Dev.scaleStep (d : Dev) (x s t : Nat) : Nat :=
  x * ((16 - t) * (d.vset t * d.vset t)) / ((16 - s) * (d.vset s * d.vset s))

/-- A phase of a gang ends: in PHASE mode its sample enters the learned history (R359). -/
def Dev.phaseExit (d : Dev) (l : Nat) : Dev :=
  match d.job? l with
  | none => d
  | some j =>
    if !j.phaseOn ∨ j.phCnt = 0 ∨ d.fld Reg.PM_MODE Fld.PM_MODE_MODE ≠ 1 then d
    else
      let key := j.ctx * 256 + j.phase
      let x := j.phSum / j.phCnt
      let old := Tbl.find? d.pm.hist key
      let h := match old with
        | some h => (((h : Int) + ((x : Int) - h) / 8)).toNat
        | none => x
      ({ d with pm := { d.pm with hist := Tbl.set d.pm.hist key h } }).setJob l
        { j with phUndo := (key, old) :: j.phUndo, phSum := 0, phCnt := 0 }

/-- A status of Table 10.5 that says that the job failed. -/
def failed (status : Nat) : Bool := decide (0x100 ≤ status)

/-- The output buffers and the core memories of a failed job become undefined (R337). -/
def Dev.loseOutputs (d : Dev) (ms : List Nat) : Dev :=
  ms.foldl (fun d n => ((d.core n).outs.foldl (fun d r => d.lose r.1 r.2) d).lose (coreBase n) 0x1000000) d

/-- A job ends: its gang is free, its engines' issued transfers have finished (R201), and its entry has its result. The
stores of a job that ends become visible before its completion (R335). A job that completes after a replay carries the tag of
its last replayed fault (R328). -/
def Dev.endJob (d : Dev) (leader : Nat) (r : JobResult) (halted : Bool) : Dev :=
  let d := d.phaseExit leader
  match d.job? leader with
  | none => d
  | some j =>
    let d := if failed r.status then d.loseOutputs j.members else d
    let d := j.members.foldl (fun d n =>
      let d := d.setReg (Reg.CCn_STICKY n) ((d.core n).sticky.setWidth 32)
      let d := d.addReg (Reg.CCn_DE_DONE n) ((d.core n).de.descs.takeWhile (·.moved)).length
      ((d.updCore n (fun c => c.leave halted)).release (agentCore n)).release (agentDe n)) d
    let d := { d with jobs := Tbl.erase d.jobs leader }
    let d := if r.status = stUnrecovered then d.satReg Reg.STC_UNRECOVERED 1 else d
    d.finish j.queue j.count { r with replays := j.replays, btag := if r.status = stProgramHalt ∨ r.status = stUnrecovered then r.btag else j.btag }

end Sys2Proof.Machine
end

