-- ==== Sys2Proof/Machine/Flags.lean ====
section
/-! DEFINITION. The host event flags (R304): 262,144 bits, set and cleared by programs, hosts, engines and the fabric. -/

namespace Sys2Proof.Machine

def Dev.flag (d : Dev) (n : Nat) : Bool := bit (Tbl.getD d.flags (n / 32) 0).toNat (n % 32)

def Dev.putFlag (d : Dev) (n : Nat) (v : Bool) : Dev :=
  let w := Tbl.getD d.flags (n / 32) 0
  let m : Word := BitVec.ofNat 32 (pow2 (n % 32))
  { d with flags := Tbl.put 0 d.flags (n / 32) (if v then w ||| m else w &&& ~~~ m) }

def Dev.setFlag (d : Dev) (n : Nat) : Dev := d.putFlag n true
def Dev.clrFlag (d : Dev) (n : Nat) : Dev := d.putFlag n false

/-- The number of host event flags (R304). -/
def nFlags : Nat := 262144

end Sys2Proof.Machine
end

