-- ==== Sys2Proof/Machine/Operands.lean ====
section
/-! DEFINITION. The register operands of a slot operation: what it reads, which is what the earlier bundles left (R112), and
how it writes a register (R118). -/

namespace Sys2Proof.Machine

/-- Bundles decoded and not retired. -/
def Core.inFlight (c : Core) : Nat := c.older.length + b2n c.cur.isSome

/-- The registers as they stand. RETIRED counts every bundle before the next one, which retire before it (R113). -/
def Core.view (c : Core) : View :=
  { s := c.s, a := c.a, v := c.v, p := c.p, lc := c.lc, sticky := c.sticky, depth := c.loops.length,
    retired := c.retired + BitVec.ofNat 64 c.inFlight }

/-- Register operands of an operation (R112): the view taken when its bundle was decoded. -/
def Core.operands (c : Core) : View :=
  match c.cur with
  | some b => b.view
  | none => c.view

def View.rs (v : View) (r : Fin 32) : Dword := if r = 0 then 0 else Tbl.getD v.s r.val 0
def View.ra (v : View) (r : Fin 16) : Addr := Tbl.getD v.a r.val 0
def View.rv (v : View) (r : Fin 32) : Option VReg := Tbl.find? v.v r.val
def View.rp (v : View) (r : Fin 8) : Option (BitVec 512) := Tbl.find? v.p r.val

/-- Bits [31:0] of a scalar register. -/
def low32 (x : Dword) : Nat := x.toNat % pow2 32

/-- Write a scalar register; a write to s0 is discarded (R118). -/
def Dev.ws (d : Dev) (n : Nat) (r : Fin 32) (x : Dword) : Dev :=
  if r = 0 then d else d.updCore n (fun c => { c with s := Tbl.set c.s r.val x })
def Dev.wa (d : Dev) (n : Nat) (r : Fin 16) (x : Addr) : Dev :=
  d.updCore n (fun c => { c with a := Tbl.set c.a r.val x })
def Dev.wv (d : Dev) (n : Nat) (r : Fin 32) (x : VReg) : Dev :=
  d.updCore n (fun c => { c with v := Tbl.set c.v r.val x })
def Dev.wp (d : Dev) (n : Nat) (r : Fin 8) (x : BitVec 512) : Dev :=
  d.updCore n (fun c => { c with p := Tbl.set c.p r.val x })

end Sys2Proof.Machine
end

