-- ==== Sys2Proof/Machine/Gang.lean ====
section
/-! DEFINITION. What concerns a whole gang: the Trail, halts, detections, the retirement of bundles (chapter 4, R325). -/

namespace Sys2Proof.Machine

/-! ### The debug registers and the Trail (R135 to R139) -/

/-- The debug registers of core n are in force for a job of this context (R135); they stay in force after ARM has been
cleared until the core's next bundle boundary (R140). -/
def Dev.armed (d : Dev) (n ctx : Nat) : Bool :=
  decide (d.fld (Reg.CCn_DBG_CONTEXT n) Fld.CCn_DBG_CONTEXT_ARM = 1 ∧
    d.fld (Reg.CCn_DBG_CONTEXT n) Fld.CCn_DBG_CONTEXT_CONTEXT = ctx) || decide ((d.core n).disarm = some ctx)

/-- A bundle boundary of core n: settings whose ARM has been cleared are disarmed (R140). -/
def Core.boundary (c : Core) : Core := if c.disarm.isSome then { c with disarm := none } else c

/-- Bytes of the stream ring, and its base. -/
def Dev.trailBase (d : Dev) (n : Nat) : Nat := d.reg64 (Reg.CCn_TRAIL_BASE_LO n) (Reg.CCn_TRAIL_BASE_HI n)
def Dev.trailSlots (d : Dev) (n : Nat) : Nat := (d.reg (Reg.CCn_TRAIL_SIZE n)).toNat / 16

/-- The stream ring's base and size are valid; an invalid value stops the Trail (Table 4.9). -/
def Dev.trailValid (d : Dev) (n : Nat) : Bool :=
  let z := (d.reg (Reg.CCn_TRAIL_SIZE n)).toNat
  (List.range 15).any (fun k => decide (z = pow2 (16 + k))) && decide (d.trailBase n % 4096 = 0) &&
    isLp d.cap48 (d.trailBase n) && (d.firstBad (d.trailBase n) z).isNone

/-- The stream ring has room for a record. -/
def Dev.trailRoom (d : Dev) (n : Nat) : Bool :=
  decide ((d.reg (Reg.CCn_TRAIL_WPTR n) - d.reg (Reg.CCn_TRAIL_RPTR n)).toNat < d.trailSlots n)

/-- Put a record into the stream ring. -/
def Dev.trailPut (d : Dev) (n : Nat) (r : BitVec 128) : Dev :=
  let i := (d.reg (Reg.CCn_TRAIL_WPTR n)).toNat
  (d.storeNow (d.trailBase n + 16 * (i % Nat.max 1 (d.trailSlots n))) (leBytes 16 r.toNat)).addReg (Reg.CCn_TRAIL_WPTR n) 1

/-- The DROP record that follows lost records when space returns (R139): type 0x0A, the count in AUX. DESIGN CHOICE: it
belongs to no bundle, and its PC and TAG are 0. -/
def Dev.trailDropRec (d : Dev) (n : Nat) : Dev :=
  let c := d.core n
  if c.trailLost = 0 ∨ d.trailRoom n = false then d
  else
    let logical := match d.jobOf n with
      | some (_, j) => (j.indexed.find? (fun e => e.2 = n)).elim 0 (·.1)
      | none => 0
    let r := 0x0A + logical * pow2 8 + noSlot * pow2 12 + (c.trailLost % 65536) * pow2 16 + (d.cycles % pow2 32) * pow2 96
    (d.updCore n (fun c => { c with trailLost := 0 })).trailPut n (BitVec.ofNat 128 r)

/-- Write held records while the ring has room: the DROP record first (R139). -/
def Dev.trailFlush (d : Dev) (n : Nat) : Nat → Dev
  | 0 => d
  | k + 1 =>
    let d := d.trailDropRec n
    match (d.core n).trailHeld with
    | [] => d
    | r :: t =>
      if d.trailRoom n then ((d.updCore n (fun c => { c with trailHeld := t })).trailPut n r).trailFlush n k else d

/-- One Trail record of an enabled event (R138, Table 4.8). -/
def Dev.trail (d : Dev) (n ty slot aux idx : Nat) (tag : Word) (busy : Bool := false) : Dev :=
  match d.jobOf n with
  | none => d
  | some (_, j) =>
    let ctl := d.reg (Reg.CCn_TRAIL_CTRL n)
    let on := Fld.CCn_TRAIL_CTRL_EN.get ctl = 1 ∧ d.armed n j.ctx ∧
      (8 < ty ∨ bit (Fld.CCn_TRAIL_CTRL_TYPES.get ctl) (ty - 1))
    if on then
      let logical := (j.indexed.find? (fun e => e.2 = n)).elim 0 (·.1)
      let r := BitVec.ofNat 128 (ty + logical * pow2 8 + slot * pow2 12 + (aux % 65536) * pow2 16 +
        (pcOf j.tagged idx % pow2 32) * pow2 32 + tag.toNat * pow2 64 + (d.cycles % pow2 32) * pow2 96)
      if Fld.CCn_TRAIL_CTRL_MODE.get ctl = 0 then
        let i := (d.reg (Reg.CCn_TRAIL_WPTR n)).toNat
        (d.updCore n (fun c => { c with trail := Tbl.set c.trail (i % 4096) r })).addReg (Reg.CCn_TRAIL_WPTR n) 1
      else if d.trailValid n = false then d
      else
        let d := d.updCore n (fun c => { c with trailHeld := c.trailHeld ++ [r] })
        if busy then d else d.trailFlush n (d.core n).trailHeld.length
    else d

/-- A Trail record of the bundle that is in issue on core n. -/
def Dev.trailCur (d : Dev) (n ty slot aux : Nat) (busy : Bool := false) : Dev :=
  let o := match (d.core n).cur with
    | some b => (b.q.idx, b.q.tag)
    | none => d.oldest n
  d.trail n ty slot aux o.1 o.2 busy

/-! ### Halts (R124, R125) -/

/-- A gang halts: the detecting member's record has PEER 0, every other member's PEER 1. A debug halt keeps the job
pending; any other ends it. `at_` is the halting bundle. -/
def Dev.haltGang (d : Dev) (det : Nat) (r : HaltReason) (slot aux : Nat) (at_ : Nat × Word) : Dev :=
  match d.jobOf det with
  | none => d.updCore det (fun c => { c with halted := true })
  | some (l, j) =>
    let d := j.indexed.foldl (fun d e =>
      let n := e.2
      let pos := if n = det then at_ else d.oldest n
      let d := d.trail n 0x04 (if n = det then slot else noSlot) r.code pos.1 pos.2
      let d := d.haltRecord n e.1 j r (if n = det then slot else noSlot) aux (n ≠ det) pos
      d.updCore n (fun c => { c with halted := true })) d
    if r.isDebug then d.setJob l { j with state := .debugHalt, haltAt := none }
    else if r = .nonReplayableFault then d.endJob l { status := stUnrecovered, aux := 0x10, btag := at_.2 } true
    else d.endJob l { status := stProgramHalt, aux := BitVec.ofNat 32 r.code, btag := at_.2 } true

/-- The bundle in issue on a core, where a halt of one of its slots is reported. -/
def Dev.curPos (d : Dev) (n : Nat) : Nat × Word :=
  match (d.core n).cur with
  | some b => (b.q.idx, b.q.tag)
  | none => d.oldest n

/-- Does the core issue operations: not halted, and its gang neither halted nor stopped for a replay. -/
def Dev.issuing (d : Dev) (n : Nat) : Bool :=
  !(d.core n).halted &&
  (match d.jobOf n with
   | some (_, j) => decide (j.state = .running)
   | none => true)

/-! ### Detections (R325, R326) -/

def checkCode : CheckKind → Nat
  | .residue => 1
  | .checkLane => 2
  | .duplicate => 3

/-- A check of core n's array `k` (0 to 3) or logic (4) fails in the operation of the bundle at `pos`: steps 1 and 2 of
R325, and whether a replay is set up (R326). -/
def Dev.detect (d : Dev) (n k : Nat) (kind : CheckKind) (pos : Nat × Word) : Dev :=
  let u := d.physUnit n k
  match d.jobOf n with
  | none => d.unitEvent u { kind := checkCode kind, unit := u }
  | some (l, j) =>
    let outcome := if j.nr then 2 else if 2 ≤ j.replays then 1 else 0
    let rec_ : FaultRec :=
      { kind := checkCode kind, unit := u, outcome := outcome, replay := if outcome = 0 then j.replays + 1 else 0,
        ctx := j.ctx, queue := j.queue, count := j.count, d0 := pcOf j.tagged pos.1, d1 := pos.2.toNat,
        d2 := (d.core n).layerCount.toNat }
    let d := d.unitEvent u rec_
    if j.nr then d.haltGang n .nonReplayableFault noSlot 0 pos
    else if 2 ≤ j.replays then d.endJob l { status := stUnrecovered, btag := pos.2 } false
    else d.setJob l { j with state := .replaySetup, btag := pos.2 }

/-- An uncorrectable word of core n's register files or instruction cache halts its gang (R186, Table 11.1). -/
def Dev.regHalt (d : Dev) (n slot : Nat) (pos : Nat × Word) : Dev :=
  (d.eccEvent (d.jobOf n) (d.physUnit n 4) 0).haltGang n .eccUncorrectable slot 0 pos

/-! ### Issue of a slot operation -/

/-- What an operation answers at its issue: it issues, it waits, it halts, or a check of its result fails. -/
inductive SlotRes where
  | ok   (d : Dev)
  | wait (d : Dev)
  | halt (d : Dev) (r : HaltReason) (aux : Nat)
  | miss (d : Dev) (k : Nat) (kind : CheckKind)
  deriving Repr

/-- Slot `k` of the bundle in issue has issued. -/
def Core.mark (c : Core) (k : Nat) : Core :=
  { c with cur := c.cur.map (fun b => { b with issued := b.issued ||| BitVec.ofNat 6 (pow2 k) }) }

/-- Slot `k` of the bundle in issue has already issued. -/
def Core.hasIssued (c : Core) (k : Nat) : Bool :=
  match c.cur with
  | some b => bit b.issued.toNat k
  | none => false

/-- Every issue restarts the gang's watchdog count (R123). -/
def Dev.issued (d : Dev) (n : Nat) : Dev :=
  match (d.core n).gang with
  | some l => d.updCore l (fun c => { c with stall := 0 })
  | none => d

/-- The physical errors of a step, before its effect. -/
def Dev.meet (d : Dev) (ph : Phys) : Dev :=
  let d := ph.corr.foldl (fun d e => d.corrected e.1 e.2.1 e.2.2) d
  { d with poison := ph.bad.foldl (fun l a => insertNat (eccBase a) l) d.poison }

/-- An entry of an array as one number. -/
def accKey (arr ent : Nat) : Nat := arr * 1024 + ent

/-- The physical errors of a step of a core: those of its accumulators and its datapath stay until they are met. -/
def Dev.meetAt (d : Dev) (c : At) : Dev :=
  let d := d.meet c.ph
  if c.ph.acc = [] ∧ c.ph.flips = [] then d
  else d.updCore c.core.val (fun x => { x with
    accBad := c.ph.acc.foldl (fun l e => insertNat (accKey e.1.val e.2.val) l) x.accBad
    flips := x.flips ++ c.ph.flips })

/-- The duplicated parts of slot `k` (R320): the scalar unit, the address generation of the load and store units, and the
sequencer. -/
def duplicated (k : Nat) : Bool := decide (k = 0 ∨ k = 3 ∨ k = 4 ∨ k = 5)

/-- The halt of an access that fails; an uncorrectable word is an event of the unit that holds it (Table 11.1). -/
def Dev.memHalt (d : Dev) (n : Nat) (e : HaltReason × Nat) : SlotRes :=
  .halt (if e.1 = .eccUncorrectable then d.eccEvent (d.jobOf n) (addrUnit e.2) e.2 else d) e.1 e.2

/-- Issue of a slot operation `f` on core `c.core` in slot `k`: nothing on a core that does not issue or in a slot that
has issued; the physical errors it meets; then its own effect on the operands of R112. -/
def Dev.slot (d : Dev) (c : At) (k : Nat) (f : Dev → Nat → View → SlotRes) : Dev :=
  let n := c.core.val
  if !d.issuing n || (d.core n).hasIssued k then d
  else
    let d := d.meetAt c
    if c.ph.reg then d.regHalt n k (d.curPos n)
    else if c.ph.dup && duplicated k then d.detect n 4 .duplicate (d.curPos n)
    else
      match f d n (d.core n).operands with
      | .ok d => (d.updCore n (fun c => c.mark k)).issued n
      | .wait d => d
      | .halt d r aux => d.haltGang n r k aux (d.curPos n)
      | .miss d u kind => d.detect n u kind (d.curPos n)

end Sys2Proof.Machine
end

