-- ==== Sys2Proof/Machine/Encoding.lean ====
section
/-! DEFINITION. What a decoder checks in a bundle (R110, R111, R142): the opcodes of every slot, their reserved fields and
their destination registers; and the bits by which a slot holds an operation (R147, R150, R160, R164, R172, R176). -/

namespace Sys2Proof.Machine

/-- The bits of slot `k` of a bundle (Table 4.2). -/
def slotBits (b : BitVec 256) (k : Nat) : Nat :=
  let x := b.toNat
  match k with
  | 0 => bits x 0 48
  | 1 => bits x 48 56
  | 2 => bits x 104 40
  | 3 => bits x 144 40
  | 4 => bits x 184 40
  | _ => bits x 224 32

/-- A destination register that a slot names (R111). -/
inductive Dest where
  | s (n : Nat) | a (n : Nat) | v (n : Nat) | p (n : Nat) | sticky
  deriving DecidableEq, Repr

/-- What the decoder finds in one slot. -/
structure SlotChk where
  illegal  : Bool := false
  reserved : Bool := false
  dest     : Option Dest := none
  deriving DecidableEq, Repr

/-- Some bit of the fields (low bit, width) is not 0. -/
def nonzero (x : Nat) (l : List (Nat × Nat)) : Bool := l.any (fun f => decide (bits x f.1 f.2 ≠ 0))

def badSlot : SlotChk := { illegal := true }

/-- A scalar destination; a write to s0 is discarded and never conflicts (R111). -/
def destS (x lo : Nat) : Option Dest := if bits x lo 5 = 0 then none else some (.s (bits x lo 5))

/-- Scalar slot: Tables 5.3 and 5.4. -/
def scalarChk (x : Nat) : SlotChk :=
  let op := bits x 0 8
  let r : SlotChk := { reserved := nonzero x [(23, 25)], dest := destS x 8 }
  if op = 0 then { reserved := nonzero x [(8, 40)] }
  else if op ≤ 0x11 then r
  else if op = 0x21 ∨ (0x25 ≤ op ∧ op ≤ 0x27) ∨ op = 0x2F then { dest := destS x 8 }
  else if 0x28 ≤ op ∧ op ≤ 0x2A then { reserved := nonzero x [(24, 24)], dest := destS x 8 }
  else if op = 0x30 ∨ op = 0x31 then { reserved := nonzero x [(13, 3)], dest := destS x 8 }
  else if op = 0x38 then { reserved := nonzero x [(21, 27)], dest := some (.a (bits x 8 4)) }
  else if op = 0x39 then { dest := some (.a (bits x 8 4)) }
  else if op = 0x3A then { reserved := nonzero x [(12, 4), (21, 27)], dest := some (.a (bits x 8 4)) }
  else if op = 0x3B then { reserved := nonzero x [(17, 31)], dest := destS x 8 }
  else if op = 0x40 then { illegal := decide (6 ≤ bits x 18 3), reserved := nonzero x [(21, 3)] }
  else if op = 0x41 then { reserved := nonzero x [(8, 16)] }
  else if op = 0x42 then { reserved := nonzero x [(8, 5), (18, 30)] }
  else if op = 0x48 then
    { illegal := decide (bits x 13 5 = 0x0F ∨ 0x15 ≤ bits x 13 5), reserved := nonzero x [(18, 30)], dest := destS x 8 }
  else if op = 0x49 then
    { illegal := decide (bits x 13 5 ≠ 0x0E), reserved := nonzero x [(18, 30)], dest := some .sticky }
  else badSlot

/-- Vector slot: Tables 5.5 and 5.7; RND = 3 is a reserved field of every vector operation (R150). -/
def vectorChk (x : Nat) : SlotChk :=
  let op := bits x 0 8
  let rnd3 := decide (bits x 36 2 = 3)
  let vd := some (Dest.v (bits x 8 5))
  let pd := some (Dest.p (bits x 8 3))
  let xAbove (k : Nat) := nonzero x [(40 + k, 16 - k)]
  let pen := decide (bits x 32 1 = 1)
  if op = 0 then { reserved := nonzero x [(8, 48)] }
  else if (1 ≤ op ∧ op ≤ 0x0D) ∨ op = 0x12 ∨ op = 0x13 ∨ op = 0x15 then { reserved := rnd3 || xAbove 0, dest := vd }
  else if op = 0x10 then { illegal := decide (6 ≤ bits x 40 3), reserved := rnd3 || xAbove 3, dest := pd }
  else if op = 0x11 then { reserved := rnd3 || xAbove 0 || pen, dest := vd }
  else if op = 0x14 then { reserved := rnd3 || xAbove 0 || pen, dest := destS x 8 }
  else if op = 0x16 then { reserved := rnd3 || xAbove 2, dest := pd }
  else if op = 0x17 then { reserved := rnd3 || xAbove 1, dest := pd }
  else if op = 0x18 then { reserved := rnd3 || xAbove 14 || decide (bits x 46 8 = 128), dest := vd }
  else if op = 0x20 then { reserved := rnd3 || xAbove 2, dest := vd }
  else if op = 0x21 then { illegal := decide (bits x 40 2 = 3), reserved := rnd3 || xAbove 2, dest := vd }
  else if op = 0x22 ∨ op = 0x23 then { illegal := decide (bits x 43 2 = 3), reserved := rnd3 || xAbove 5, dest := vd }
  else if op = 0x30 then { reserved := rnd3 || xAbove 2, dest := vd }
  else if op = 0x31 then { reserved := rnd3 || xAbove 0, dest := pd }
  else badSlot

/-- Matrix slot: Table 5.8. -/
def matrixChk (x : Nat) : SlotChk :=
  let op := bits x 0 6
  if op = 0 then { reserved := nonzero x [(6, 34)] }
  else if op = 1 then { reserved := nonzero x [(37, 3)] }
  else if op = 2 then { reserved := nonzero x [(10, 30)] }
  else if op = 3 then { reserved := nonzero x [(26, 14)] }
  else if op = 4 then { reserved := nonzero x [(6, 4), (28, 12)], dest := some (.v (bits x 22 5)) }
  else if op = 5 then { reserved := nonzero x [(6, 4), (29, 11)] }
  else badSlot

/-- Load slot: Table 5.10. -/
def loadChk (x : Nat) : SlotChk :=
  let op := bits x 0 6
  if op = 0 then { reserved := nonzero x [(6, 34)] }
  else if op = 1 then { illegal := decide (bits x 15 3 = 7), dest := destS x 6 }
  else if op = 2 then { dest := some (.v (bits x 6 5)) }
  else if op = 3 then { reserved := nonzero x [(20, 20)], dest := some (.v (bits x 6 5)) }
  else if op = 8 then { illegal := decide (bits x 30 2 = 3), reserved := nonzero x [(34, 6)] }
  else if op = 9 then { reserved := nonzero x [(24, 16)] }
  else if op = 0x0A then { reserved := nonzero x [(6, 4), (28, 12)] }
  else if op = 0x0B then { reserved := nonzero x [(8, 2), (14, 26)] }
  else badSlot

/-- Store slot: Table 5.14. -/
def storeChk (x : Nat) : SlotChk :=
  let op := bits x 0 6
  if op = 0 then { reserved := nonzero x [(6, 34)] }
  else if op = 1 then {}
  else if op = 2 then { illegal := decide (bits x 19 2 = 3) }
  else if op = 3 then { reserved := nonzero x [(20, 20)] }
  else if op = 8 then { reserved := nonzero x [(36, 4)] }
  else if op = 9 then { reserved := nonzero x [(25, 15)] }
  else badSlot

/-- Sync slot: Table 5.16. -/
def syncChk (x : Nat) : SlotChk :=
  let op := bits x 0 6
  if op = 0 ∨ op = 8 ∨ op = 0x0C then { reserved := nonzero x [(6, 26)] }
  else if op = 1 then { reserved := nonzero x [(7, 25)] }
  else if op = 2 then { reserved := nonzero x [(6, 1)] }
  else if op = 3 then { reserved := nonzero x [(13, 19)] }
  else if op = 4 ∨ op = 5 then { reserved := nonzero x [(11, 21)] }
  else if op = 6 then { reserved := nonzero x [(19, 13)] }
  else if op = 7 then { reserved := nonzero x [(24, 8)] }
  else if op = 9 then { reserved := nonzero x [(14, 18)] }
  else if op = 0x0A then { reserved := nonzero x [(15, 17)] }
  else if op = 0x0B then { reserved := nonzero x [(6, 4), (15, 17)] }
  else badSlot

def slotChk (b : BitVec 256) (k : Nat) : SlotChk :=
  let x := slotBits b k
  match k with
  | 0 => scalarChk x
  | 1 => vectorChk x
  | 2 => matrixChk x
  | 3 => loadChk x
  | 4 => storeChk x
  | _ => syncChk x

/-- The mask of the slots whose destination another slot of the bundle also names (Table 4.6, SLOT_CONFLICT). -/
def conflictMask (b : BitVec 256) : Nat :=
  let ds := (List.range 6).map (fun k => (k, (slotChk b k).dest))
  ds.foldl (fun m e =>
    match e.2 with
    | some x => if ds.any (fun f => decide (f.1 ≠ e.1 ∧ f.2 = some x)) then m + pow2 e.1 else m
    | none => m) 0

/-- The lowest bit of a mask of slots. -/
def lowSlot (m : Nat) : Nat := ((List.range 6).find? (fun k => bit m k)).getD 0

/-- The check of R111: the lowest reason code, the lowest slot that breaks that rule, and AUX. -/
def bundleChk (b : BitVec 256) : Option (HaltReason × Nat × Nat) :=
  match (List.range 6).find? (fun k => (slotChk b k).illegal) with
  | some k => some (.illegalOpcode, k, 0)
  | none =>
    match (List.range 6).find? (fun k => (slotChk b k).reserved) with
    | some k => some (.reservedField, k, 0)
    | none =>
      let m := conflictMask b
      if m = 0 then none else some (.slotConflict, lowSlot m, m)

/-- Slots of a bundle that hold NOP, as a mask of issued slots (R110). -/
def nopMask (b : BitVec 256) : Nat :=
  (List.range 6).foldl (fun m k => if bits (slotBits b k) 0 (if k ≤ 1 then 8 else 6) = 0 then m + pow2 k else m) 0

/-- A bundle after which the sequencer waits to know where execution continues: BR, J, JR; LOOP, LCSET, END. -/
def isControl (b : BitVec 256) : Bool :=
  let sc := bits (slotBits b 0) 0 8
  let sy := bits (slotBits b 5) 0 6
  decide (sc = 0x40 ∨ sc = 0x41 ∨ sc = 0x42 ∨ sy = 2 ∨ sy = 3 ∨ sy = 0x0C)

/-! ### The operation that a slot holds

Each command of a slot operation names the operation with its fields. These are the bits by which a bundle holds it (Tables
5.3 to 5.16); a core issues nothing else than what its bundle in issue holds (R108). -/

/-- A slot operation in a bundle: the core, the slot, and the slot's bits. -/
structure SlotWord where
  core : Nat
  slot : Nat
  bits : Nat
  deriving DecidableEq, Repr

/-- Fields put together: (low bit, value). -/
def place (l : List (Nat × Nat)) : Nat := l.foldl (fun x f => x + f.2 * pow2 f.1) 0

/-- FMT codes (R70). -/
def Fmt.code : Fmt → Nat
  | .int2 => 0 | .int4 => 1 | .int8 => 2 | .uint8 => 3 | .int16 => 4 | .int32 => 5
  | .fp4 => 6 | .fp6e2m3 => 7 | .fp6e3m2 => 8 | .fp8e4m3 => 9 | .fp8e5m2 => 10
  | .bf16 => 11 | .fp16 => 12 | .fp32 => 13 | .cb3 => 14 | .cb4 => 15

/-- Rounding modes (R89). -/
def Rnd.code : Rnd → Nat
  | .rne => 0 | .rtz => 1 | .rhaz => 2

/-- SPEC numbers (Table 4.5). -/
def specCode : Spec → Nat
  | .coreId => 0x00 | .gangSize => 0x01 | .contextId => 0x02 | .queueId => 0x03 | .jobTag => 0x04 | .layerCount => 0x05
  | .retiredLo => 0x06 | .retiredHi => 0x07 | .cycleLo => 0x08 | .cycleHi => 0x09 | .physCore => 0x0A
  | .timeLo => 0x0B | .timeHi => 0x0C | .replays => 0x0D | .sticky => 0x0E | .lc k => 0x10 + k.val | .loopDepth => 0x14

/-- COND (R149). -/
def condCode : Cond → Nat
  | .eq => 0 | .ne => 1 | .lt => 2 | .ge => 3 | .ltu => 4 | .geu => 5

def vcmpCode : VCmp → Nat
  | .eq => 0 | .ne => 1 | .lt => 2 | .le => 3 | .gt => 4 | .ge => 5

def plogCode : PLogOp → Nat
  | .and => 0 | .or => 1 | .xor => 2 | .andNot => 3

def redCode : RedOp → Nat
  | .sum => 0 | .max => 1 | .min => 2

def ldCode : LdSize → Nat
  | .u8 => 0 | .i8 => 1 | .u16 => 2 | .i16 => 3 | .u32 => 4 | .i32 => 5 | .d64 => 6

def stwCode : StW → Nat
  | .w8 => 0 | .w16 => 1 | .w32 => 2

def kindCode : RowKind → Nat
  | .main => 0 | .side => 1 | .shifts => 2

/-- Table 5.3, form by form. -/
def formR (c : At) (op : Nat) (sd sa sb : Fin 32) : SlotWord :=
  ⟨c.core.val, 0, place [(0, op), (8, sd.val), (13, sa.val), (18, sb.val)]⟩
def formI (c : At) (op : Nat) (sd sa : Fin 32) (imm : Nat) : SlotWord :=
  ⟨c.core.val, 0, place [(0, op), (8, sd.val), (13, sa.val), (18, imm)]⟩
def formScalar (c : At) (op : Nat) (l : List (Nat × Nat)) : SlotWord := ⟨c.core.val, 0, place ((0, op) :: l)⟩

/-- Table 5.5, with the X field of the operation. -/
def formV (c : At) (op : Nat) (x : VF) (ext : Nat := 0) : SlotWord :=
  ⟨c.core.val, 1, place [(0, op), (8, x.vd.val), (13, x.va.val), (18, x.vb.val), (23, x.vc.val), (28, x.et.code),
    (32, b2n x.pen), (33, x.p.val), (36, x.rnd.code), (38, b2n x.novf), (39, b2n x.sat), (40, ext)]⟩

/-- The other slots: opcode in [5:0]. -/
def formM (c : At) (op : Nat) (l : List (Nat × Nat)) : SlotWord := ⟨c.core.val, 2, place ((0, op) :: l)⟩
def formL (c : At) (op : Nat) (l : List (Nat × Nat)) : SlotWord := ⟨c.core.val, 3, place ((0, op) :: l)⟩
def formS (c : At) (op : Nat) (l : List (Nat × Nat)) : SlotWord := ⟨c.core.val, 4, place ((0, op) :: l)⟩
def formY (c : At) (op : Nat) (l : List (Nat × Nat)) : SlotWord := ⟨c.core.val, 5, place ((0, op) :: l)⟩

/-- The slot word of a slot operation: Tables 5.4 (scalar), 5.7 (vector), 5.8 (matrix), 5.10 (load), 5.14 (store) and 5.16
(sync). None for a command that is no slot operation. -/
def slotWord (i : Instr) : Option SlotWord :=
  match i with
  | .add c d a b => some (formR c 0x01 d a b)
  | .sub c d a b => some (formR c 0x02 d a b)
  | .mul c d a b => some (formR c 0x03 d a b)
  | .mulh c d a b => some (formR c 0x04 d a b)
  | .and c d a b => some (formR c 0x05 d a b)
  | .or c d a b => some (formR c 0x06 d a b)
  | .xor c d a b => some (formR c 0x07 d a b)
  | .shl c d a b => some (formR c 0x08 d a b)
  | .shr c d a b => some (formR c 0x09 d a b)
  | .sra c d a b => some (formR c 0x0A d a b)
  | .min c d a b => some (formR c 0x0B d a b)
  | .max c d a b => some (formR c 0x0C d a b)
  | .minu c d a b => some (formR c 0x0D d a b)
  | .maxu c d a b => some (formR c 0x0E d a b)
  | .slt c d a b => some (formR c 0x0F d a b)
  | .sltu c d a b => some (formR c 0x10 d a b)
  | .seq c d a b => some (formR c 0x11 d a b)
  | .addi c d a k => some (formI c 0x21 d a k.toNat)
  | .andi c d a k => some (formI c 0x25 d a k.toNat)
  | .ori c d a k => some (formI c 0x26 d a k.toNat)
  | .xori c d a k => some (formI c 0x27 d a k.toNat)
  | .shli c d a k => some (formI c 0x28 d a k.val)
  | .shri c d a k => some (formI c 0x29 d a k.val)
  | .srai c d a k => some (formI c 0x2A d a k.val)
  | .slti c d a k => some (formI c 0x2F d a k.toNat)
  | .li c d k => some (formScalar c 0x30 [(8, d.val), (16, k.toNat)])
  | .lih c d k => some (formScalar c 0x31 [(8, d.val), (16, k.toNat)])
  | .aadd c d a b => some (formScalar c 0x38 [(8, d.val), (12, a.val), (16, b.val)])
  | .aaddi c d a k => some (formScalar c 0x39 [(8, d.val), (12, a.val), (16, k.toNat)])
  | .amov c d b => some (formScalar c 0x3A [(8, d.val), (16, b.val)])
  | .mova c d a => some (formScalar c 0x3B [(8, d.val), (13, a.val)])
  | .br c a b o off => some (formScalar c 0x40 [(8, a.val), (13, b.val), (18, condCode o), (24, off.toNat)])
  | .j c off => some (formScalar c 0x41 [(24, off.toNat)])
  | .jr c a => some (formScalar c 0x42 [(13, a.val)])
  | .mfs c d x => some (formScalar c 0x48 [(8, d.val), (13, specCode x)])
  | .mts c b => some (formScalar c 0x49 [(8, b.val), (13, specCode .sticky)])
  | .vadd c x => some (formV c 0x01 x)
  | .vsub c x => some (formV c 0x02 x)
  | .vmul c x => some (formV c 0x03 x)
  | .vfma c x => some (formV c 0x04 x)
  | .vmin c x => some (formV c 0x05 x)
  | .vmax c x => some (formV c 0x06 x)
  | .vabs c x => some (formV c 0x07 x)
  | .vneg c x => some (formV c 0x08 x)
  | .vand c x => some (formV c 0x09 x)
  | .vor c x => some (formV c 0x0A x)
  | .vxor c x => some (formV c 0x0B x)
  | .vshl c x => some (formV c 0x0C x)
  | .vshr c x => some (formV c 0x0D x)
  | .vcmp c x o => some (formV c 0x10 x (vcmpCode o))
  | .vsel c x => some (formV c 0x11 x)
  | .vmov c x => some (formV c 0x12 x)
  | .vbcast c x => some (formV c 0x13 x)
  | .vext c x => some (formV c 0x14 x)
  | .viota c x => some (formV c 0x15 x)
  | .plog c x o => some (formV c 0x16 x (plogCode o))
  | .pset c x b => some (formV c 0x17 x (b2n b))
  | .vcvt c x src part scale => some (formV c 0x18 x (place [(0, src.code), (4, part.val), (6, unsgn 8 scale)]))
  | .vlut c x tb => some (formV c 0x20 x tb.val)
  | .vred c x o => some (formV c 0x21 x (redCode o))
  | .vwmax c x k st => some (formV c 0x22 x (place [(0, k.val), (3, st.val)]))
  | .vwavg c x k st => some (formV c 0x23 x (place [(0, k.val), (3, st.val)]))
  | .vboxdec c x tb => some (formV c 0x30 x tb.val)
  | .vnms c x => some (formV c 0x31 x)
  | .mstream c am add outl feed ent sv ad se =>
    some (formM c 1 [(6, am.toNat), (10, b2n add), (11, b2n outl), (12, b2n feed), (13, ent.val), (23, sv.val), (28, ad.val),
      (32, se.val)])
  | .mswap c am => some (formM c 2 [(6, am.toNat)])
  | .mclr c am ent sn fp => some (formM c 3 [(6, am.toNat), (10, ent.val), (20, sn.val), (25, b2n fp)])
  | .mard c arr ent vd half => some (formM c 4 [(10, arr.val), (12, ent.val), (22, vd.val), (27, b2n half)])
  | .mawr c arr ent va half fp => some (formM c 5 [(10, arr.val), (12, ent.val), (22, va.val), (27, b2n half), (28, b2n fp)])
  | .lds c d a size imm => some (formL c 1 [(6, d.val), (11, a.val), (15, ldCode size), (18, imm.toNat)])
  | .vld c d a imm => some (formL c 2 [(6, d.val), (11, a.val), (15, imm.toNat)])
  | .vgth c d a b => some (formL c 3 [(6, d.val), (11, a.val), (15, b.val)])
  | .srow c am a sr row f k ba =>
    some (formL c 8 [(6, am.toNat), (10, a.val), (14, sr.val), (19, row.val), (26, f.code), (30, kindCode k), (32, ba.val)])
  | .wgather c am a sp st => some (formL c 9 [(6, am.toNat), (10, a.val), (14, sp.val), (19, st.val)])
  | .wfill c am as sm ss => some (formL c 0x0A [(10, am.val), (14, as.val), (18, sm.val), (23, ss.val)])
  | .tld c tb a => some (formL c 0x0B [(6, tb.val), (10, a.val)])
  | .sts c b a size imm => some (formS c 1 [(6, b.val), (11, a.val), (15, size.val), (17, imm.toNat)])
  | .vst c b a p pen w imm =>
    some (formS c 2 [(6, b.val), (11, a.val), (15, p.val), (18, b2n pen), (19, stwCode w), (21, imm.toNat)])
  | .vsct c b a vc => some (formS c 3 [(6, b.val), (11, a.val), (15, vc.val)])
  | .drain c am ent sn ad ao st f l =>
    some (formS c 8 [(6, am.toNat), (10, ent.val), (20, sn.val), (25, ad.val), (29, ao.val), (33, b2n st), (34, b2n f),
      (35, b2n l)])
  | .statst c sl sn a => some (formS c 9 [(6, sl.val), (16, sn.val), (21, a.val)])
  | .layer c nr => some (formY c 1 [(6, b2n nr)])
  | .loop c sn e => some (formY c 2 [(7, sn.val), (12, e.toNat)])
  | .lcset c lv sn => some (formY c 3 [(6, lv.val), (8, sn.val)])
  | .set c sn => some (formY c 4 [(6, sn.val)])
  | .wait c sn => some (formY c 5 [(6, sn.val)])
  | .setl c lf sr => some (formY c 6 [(6, lf.toNat), (14, sr.val)])
  | .waitl c lf sr sn => some (formY c 7 [(6, lf.toNat), (14, sr.val), (19, sn.val)])
  | .bar c => some (formY c 8 [])
  | .phase c num => some (formY c 9 [(6, num.toNat)])
  | .dma c a sn => some (formY c 0x0A [(6, a.val), (10, sn.val)])
  | .dwait c sn => some (formY c 0x0B [(10, sn.val)])
  | .end_ c => some (formY c 0x0C [])
  | _ => none

/-- The bundle in issue on the operation's core holds it in its slot (R108). -/
def Dev.holds (d : Dev) (i : Instr) : Bool :=
  match slotWord i with
  | none => false
  | some w =>
    match (d.core w.core).cur with
    | some b => decide (slotBits b.q.bits w.slot = w.bits)
    | none => false

/-- A slot operation acts where its bundle is in issue; a core executes nothing that its bundle does not hold (R108). -/
def slotAct (i : Instr) (s : State) (f : Dev → Dev) : Host.Outcome State Fault Refusal :=
  act s (fun d => if d.holds i then f d else d)

end Sys2Proof.Machine
end

