-- ==== Sys2Proof/Machine/Vector.lean ====
section
/-! DEFINITION. The vector slot (R150 to R159). -/

namespace Sys2Proof.Machine

def slotVector : Nat := 1

/-- What a check at issue answers: a value, or a halt reason with its AUX. -/
abbrev Chk (α : Type) := Except (HaltReason × Nat) α

def haltWith {α : Type} (r : HaltReason) (aux : Nat := 0) : Chk α := .error (r, aux)

/-- A check passes, or halts. -/
def require (b : Bool) (r : HaltReason) (aux : Nat := 0) : Chk Unit := if b then .ok () else .error (r, aux)

/-! ### Element views (R118, R150) -/

/-- Elements of a register in a format: 128 of 32 bits, 256 of 16 bits, otherwise 512 (R154). -/
def Fmt.count (f : Fmt) : Nat := if f.width = 32 then 128 else if f.width = 16 then 256 else 512

/-- The width that an element type gives to a view: 8 bits for every type of 8 bits or fewer (Table 5.7, VAND). -/
def Fmt.viewWidth (f : Fmt) : Nat := if f.width ≤ 8 then 8 else f.width

/-- The first `n` elements of width `w` of a register. -/
def elems (w n : Nat) (v : VReg) : List Nat :=
  let x := v.toNat
  (List.range n).map (fun i => bits x (w * i) w)

/-- The register that holds a list of elements of width `w` in its low bits, and 0 above. -/
def packElems (w : Nat) (l : List Nat) : VReg :=
  BitVec.ofNat 4096 (l.foldr (fun x acc => x % pow2 w + pow2 w * acc) 0)

/-- Element types of the arithmetic operations (Table 5.6). -/
def Fmt.arith : Fmt → Bool
  | .int8 | .uint8 | .int16 | .int32 | .fp32 | .bf16 | .fp16 => true
  | _ => false

/-- The integer element types of Table 5.6. -/
def Fmt.arithInt (f : Fmt) : Bool := f.arith && f.isInt

/-- Issue cycles of an element type (Table 5.6). -/
def Fmt.cycles : Fmt → Nat
  | .bf16 | .fp16 => 2
  | _ => 1

/-- A vector or predicate register operand; an unwritten one halts with its number (R133). -/
def View.needV (v : View) (r : Fin 32) : Chk VReg :=
  match v.rv r with
  | some x => .ok x
  | none => haltWith .regUnset r.val
def View.needP (v : View) (r : Fin 8) : Chk Nat :=
  match v.rp r with
  | some x => .ok x.toNat
  | none => haltWith .regUnset r.val

/-- The governing predicate; none when PEN is 0. -/
def View.mask (v : View) (x : VF) : Chk (Option Nat) := if x.pen then (v.needP x.p).map some else .ok none

/-- The register that a field of five bits names as a predicate: its low three bits (R150). DESIGN CHOICE: the two bits above
them are ignored (the spec calls them neither reserved nor ignored). -/
def predOf (r : Fin 32) : Fin 8 := ⟨r.val % 8, Nat.mod_lt _ (by decide)⟩

/-- Write VD: with a mask, elements whose bit is 0 keep VD, or 0 where VD is unwritten (R153). -/
def Dev.putElems (d : Dev) (n : Nat) (v : View) (vd : Fin 32) (w : Nat) (m : Option Nat) (l : List Nat) : Dev :=
  match m with
  | none => d.wv n vd (packElems w l)
  | some p =>
    let old := elems w l.length ((v.rv vd).getD 0)
    let out := ((List.range l.length).zip (l.zip old)).map (fun e => if bit p e.1 then e.2.1 else e.2.2)
    d.wv n vd (packElems w out)

/-- Write PD under a mask; bits above the element count are written as 0 (R118). -/
def Dev.putPred (d : Dev) (n : Nat) (v : View) (pd : Fin 8) (cnt : Nat) (m : Option Nat) (l : List Bool) : Dev :=
  let old := ((v.rp pd).getD 0).toNat
  let out := ((List.range cnt).zip l).map (fun e =>
    match m with
    | some p => if bit p e.1 then e.2 else bit old e.1
    | none => e.2)
  d.wp n pd (BitVec.ofNat 512 (out.foldr (fun b acc => b2n b + 2 * acc) 0))

/-! ### The checks of the vector unit (R319) -/

/-- Where the result of a vector operation goes: a vector register, a predicate of `cnt` bits, a scalar register. -/
inductive VDest where
  | vec (r : Fin 32)
  | pred (r : Fin 8) (cnt : Nat)
  | scalar (r : Fin 32)
  deriving DecidableEq, Repr

/-- Bits of the result that lane i computes: [32i + 31 : 32i] of a vector register, its elements' bits of a predicate, and in
lane 0 the element that goes to a scalar register. -/
def VDest.laneBits : VDest → Nat
  | .pred _ cnt => cnt / 128
  | _ => 32

/-- The result as bits, and as a write of it. -/
def VDest.get (x : VDest) (c : Core) : Nat :=
  match x with
  | .vec r => (Tbl.getD c.v r.val 0).toNat
  | .pred r _ => (Tbl.getD c.p r.val 0).toNat
  | .scalar r => (Tbl.getD c.s r.val 0).toNat
def VDest.put (x : VDest) (d : Dev) (n y : Nat) : Dev :=
  match x with
  | .vec r => d.wv n r (BitVec.ofNat 4096 y)
  | .pred r _ => d.wp n r (BitVec.ofNat 512 y)
  | .scalar r => d.ws n r (BitVec.ofNat 64 y)

/-- The lanes in which a core's vector unit is about to go wrong: (lane, bits inverted). -/
def laneFlips (l : List Flip) : List (Nat × Nat) :=
  l.filterMap (fun f =>
    match f.site with
    | .lane i => some (i.val, f.mask)
    | _ => none)

/-- The check lanes land on a lane: those of group G mod 32, and of the next group in an operation of two issue cycles. -/
def laneChecked (g cyc lane : Nat) : Bool := (List.range cyc).any (fun k => decide (lane / 4 = (g + k) % 32))

/-- A lane's residue check of integer elements of width `w`: some element has not the residue that its operands predict. -/
def laneFails (w want got : Nat) : Bool :=
  (List.range (32 / w)).any (fun i => intFails (residue (sgn w (bits want (w * i) w))) (sgn w (bits got (w * i) w)))

/-- The outcome of a vector operation in which lanes go wrong: the check that detects it, or the value as it is written.
`res` is the element width of an operation that every lane checks by residue; the others have the check lanes. -/
def laneCheck (dst : VDest) (res : Option Nat) (g cyc : Nat) (want : Nat) : List (Nat × Nat) → Nat → Except CheckKind Nat
  | [], got => .ok got
  | (lane, mask) :: t, got =>
    let w := dst.laneBits
    let m := mask % pow2 w
    let x := Nat.xor got (m * pow2 (w * lane))
    if m = 0 then laneCheck dst res g cyc want t got
    else match res with
      | some e =>
        if laneFails e (bits want (w * lane) w) (bits x (w * lane) w) then .error .residue
        else laneCheck dst res g cyc want t x
      | none => if laneChecked g cyc lane then .error .checkLane else laneCheck dst res g cyc want t x

/-- Issue of a vector operation of `cyc` issue cycles, whose result goes to `dst`; G advances with each cycle, and the checks
of R319 meet what a fault corrupts before it is written. -/
def Dev.vecOp (d : Dev) (c : At) (cyc : Nat) (dst : VDest) (f : Dev → Nat → View → Chk Dev) (res : Option Nat := none) :
    Dev :=
  d.slot c slotVector (fun d n v =>
    match f d n v with
    | .error e => .halt d e.1 e.2
    | .ok d' =>
      let g := (d.core n).checkG
      let count (d : Dev) : Dev := d.updCore n (fun c => { c with checkG := c.checkG + cyc })
      let l := laneFlips (d.core n).flips
      if l = [] then .ok (count d')
      else
        let clear (d : Dev) : Dev := d.updCore n (fun c => { c with flips := c.flips.filter (fun f => laneFlips [f] = []) })
        let want := dst.get (d'.core n)
        match laneCheck dst res g cyc want l want with
        | .error k => .miss (clear (count d)) 4 k
        | .ok got => .ok (dst.put (clear (count d')) n got))

/-! ### Element-wise arithmetic (R151, R152) -/

/-- A floating-point result rounded once to ET under RND (R152). -/
def fpCode (et : Fmt) (r : Rnd) (x : Val) : Nat := (convert et r false 0 x).code

/-- One element of an element-wise operation from its sources' codes. -/
def vElem (x : VF) (fi : List Int → Int) (ff : List Val → Val) (codes : List Nat) : Nat :=
  if x.et.isInt then x.et.fitInt x.sat (fi (codes.map x.et.toInt))
  else fpCode x.et x.rnd (ff (codes.map x.et.decode))

/-- Transpose source registers into operand lists. -/
def columns (n : Nat) (l : List (List Nat)) : List (List Nat) :=
  (List.range n).map (fun i => l.map (fun r => (r[i]?).getD 0))

/-- The element width of an operation whose integer form every lane checks by residue (R319). -/
def byResidue (x : VF) : Option Nat := if x.et.isInt then some x.et.width else none

/-- An element-wise operation on the listed sources. -/
def Dev.vElementwise (d : Dev) (c : At) (x : VF) (srcs : List (Fin 32)) (ok : Fmt → Bool)
    (fi : List Int → Int) (ff : List Val → Val) (res : Option Nat := none) : Dev :=
  d.vecOp c x.et.cycles (.vec x.vd) (res := res) (fun d n v => do
    require (ok x.et) .formatMismatch
    let regs ← srcs.mapM v.needV
    let m ← v.mask x
    let w := x.et.width
    let cnt := x.et.count
    let out := (columns cnt (regs.map (elems w cnt))).map (vElem x fi ff)
    pure (d.putElems n v x.vd w m out))

def arg {α : Type} (z : α) (l : List α) (i : Nat) : α := (l[i]?).getD z
def ai (l : List Int) (i : Nat) : Int := arg 0 l i
def af (l : List Val) (i : Nat) : Val := arg .zero l i

def execVadd (c : At) (x : VF) (s : State) := slotAct (.vadd c x) s (fun d =>
  d.vElementwise c x [x.va, x.vb] Fmt.arith (fun l => ai l 0 + ai l 1) (fun l => (af l 0).add (af l 1)) (byResidue x))
def execVsub (c : At) (x : VF) (s : State) := slotAct (.vsub c x) s (fun d =>
  d.vElementwise c x [x.va, x.vb] Fmt.arith (fun l => ai l 0 - ai l 1) (fun l => (af l 0).sub (af l 1)) (byResidue x))
def execVmul (c : At) (x : VF) (s : State) := slotAct (.vmul c x) s (fun d =>
  d.vElementwise c x [x.va, x.vb] Fmt.arith (fun l => ai l 0 * ai l 1) (fun l => (af l 0).mul (af l 1)) (byResidue x))
/-- VD = VA × VB + VC with one rounding. -/
def execVfma (c : At) (x : VF) (s : State) := slotAct (.vfma c x) s (fun d =>
  d.vElementwise c x [x.va, x.vb, x.vc] Fmt.arith (fun l => ai l 0 * ai l 1 + ai l 2)
    (fun l => ((af l 0).mul (af l 1)).add (af l 2)) (byResidue x))
def execVmin (c : At) (x : VF) (s : State) := slotAct (.vmin c x) s (fun d =>
  d.vElementwise c x [x.va, x.vb] Fmt.arith (fun l => if ai l 1 < ai l 0 then ai l 1 else ai l 0)
    (fun l => (af l 0).min (af l 1)))
def execVmax (c : At) (x : VF) (s : State) := slotAct (.vmax c x) s (fun d =>
  d.vElementwise c x [x.va, x.vb] Fmt.arith (fun l => if ai l 0 < ai l 1 then ai l 1 else ai l 0)
    (fun l => (af l 0).max (af l 1)))
def execVabs (c : At) (x : VF) (s : State) := slotAct (.vabs c x) s (fun d =>
  d.vElementwise c x [x.va] Fmt.arith (fun l => ((ai l 0).natAbs : Int)) (fun l => (af l 0).abs))
def execVneg (c : At) (x : VF) (s : State) := slotAct (.vneg c x) s (fun d =>
  d.vElementwise c x [x.va] Fmt.arith (fun l => - ai l 0) (fun l => (af l 0).neg))
/-- The shift amount is the low log2(width) bits of VB's element. -/
def execVshl (c : At) (x : VF) (s : State) := slotAct (.vshl c x) s (fun d =>
  d.vElementwise c x [x.va, x.vb] Fmt.arithInt
    (fun l => ai l 0 * (pow2 (ai l 1 % (x.et.width : Int)).toNat : Int)) (fun _ => .zero))
def execVshr (c : At) (x : VF) (s : State) := slotAct (.vshr c x) s (fun d =>
  d.vElementwise c x [x.va, x.vb] Fmt.arithInt
    (fun l => ai l 0 / (pow2 (ai l 1 % (x.et.width : Int)).toNat : Int)) (fun _ => .zero))

/-! ### Bitwise operations and moves -/

/-- An operation on bits that any ET accepts; ET gives the element width that PEN governs. -/
def Dev.vBits (d : Dev) (c : At) (x : VF) (srcs : List (Fin 32)) (f : List Nat → Nat) : Dev :=
  d.vecOp c 1 (.vec x.vd) (fun d n v => do
    let regs ← srcs.mapM v.needV
    let m ← v.mask x
    let w := x.et.viewWidth
    let cnt := x.et.count
    pure (d.putElems n v x.vd w m ((columns cnt (regs.map (elems w cnt))).map f)))

def an (l : List Nat) (i : Nat) : Nat := arg 0 l i

def execVand (c : At) (x : VF) (s : State) := slotAct (.vand c x) s (fun d =>
  d.vBits c x [x.va, x.vb] (fun l => Nat.land (an l 0) (an l 1)))
def execVor (c : At) (x : VF) (s : State) := slotAct (.vor c x) s (fun d =>
  d.vBits c x [x.va, x.vb] (fun l => Nat.lor (an l 0) (an l 1)))
def execVxor (c : At) (x : VF) (s : State) := slotAct (.vxor c x) s (fun d =>
  d.vBits c x [x.va, x.vb] (fun l => Nat.xor (an l 0) (an l 1)))
def execVmov (c : At) (x : VF) (s : State) := slotAct (.vmov c x) s (fun d => d.vBits c x [x.va] (fun l => an l 0))

/-- VBCAST: VA names sA. -/
def execVbcast (c : At) (x : VF) (s : State) := slotAct (.vbcast c x) s (fun d =>
  d.vecOp c 1 (.vec x.vd) (fun d n v => do
    let m ← v.mask x
    let w := x.et.viewWidth
    pure (d.putElems n v x.vd w m (List.replicate x.et.count ((v.rs x.va).toNat % pow2 w)))))

/-- VSEL: VD[i] = VA[i] where P bit i is 1, else VB[i]. -/
def execVsel (c : At) (x : VF) (s : State) := slotAct (.vsel c x) s (fun d =>
  d.vecOp c 1 (.vec x.vd) (fun d n v => do
    let a ← v.needV x.va
    let b ← v.needV x.vb
    let p ← v.needP x.p
    let w := x.et.viewWidth
    let cnt := x.et.count
    let out := ((List.range cnt).zip ((elems w cnt a).zip (elems w cnt b))).map
      (fun e => if bit p e.1 then e.2.1 else e.2.2)
    pure (d.putElems n v x.vd w none out)))

/-- VEXT: VD names sD, VB names sB. -/
def execVext (c : At) (x : VF) (s : State) := slotAct (.vext c x) s (fun d =>
  d.vecOp c 1 (.scalar x.vd) (fun d n v => do
    let a ← v.needV x.va
    let w := x.et.viewWidth
    let i := (v.rs x.vb).toNat % x.et.count
    let e := bits a.toNat (w * i) w
    let r : Dword := if x.et.isInt && x.et ≠ .uint8 then BitVec.ofInt 64 (sgn w e) else BitVec.ofNat 64 e
    pure (d.ws n x.vd r)))

/-- VIOTA: integer ET only; values beyond the type wrap or saturate. -/
def execViota (c : At) (x : VF) (s : State) := slotAct (.viota c x) s (fun d =>
  d.vecOp c 1 (.vec x.vd) (fun d n v => do
    require x.et.arithInt .formatMismatch
    let m ← v.mask x
    pure (d.putElems n v x.vd x.et.width m ((List.range x.et.count).map (fun (i : Nat) => x.et.fitInt x.sat (i : Int))))))

/-! ### Predicates -/

/-- A comparison of two values; a NaN compares false except under NE (Table 5.7). -/
def vcmpHolds (o : VCmp) (x : Option Ordering) : Bool :=
  match o, x with
  | .ne, none => true
  | _, none => false
  | .eq, some y => decide (y = .eq)
  | .ne, some y => decide (y ≠ .eq)
  | .lt, some y => decide (y = .lt)
  | .le, some y => decide (y ≠ .gt)
  | .gt, some y => decide (y = .gt)
  | .ge, some y => decide (y ≠ .lt)

def execVcmp (c : At) (x : VF) (o : VCmp) (s : State) := slotAct (.vcmp c x o) s (fun d =>
  d.vecOp c x.et.cycles (.pred (predOf x.vd) x.et.count) (fun d n v => do
    require x.et.arith .formatMismatch
    let a ← v.needV x.va
    let b ← v.needV x.vb
    let m ← v.mask x
    let w := x.et.width
    let cnt := x.et.count
    let l := ((elems w cnt a).zip (elems w cnt b)).map (fun e => vcmpHolds o ((x.et.decode e.1).cmp (x.et.decode e.2)))
    pure (d.putPred n v (predOf x.vd) cnt m l)))

def plogHolds (o : PLogOp) (a b : Bool) : Bool :=
  match o with
  | .and => a && b
  | .or => a || b
  | .xor => a != b
  | .andNot => a && !b

def execPlog (c : At) (x : VF) (o : PLogOp) (s : State) := slotAct (.plog c x o) s (fun d =>
  d.vecOp c 1 (.pred (predOf x.vd) x.et.count) (fun d n v => do
    let a ← v.needP (predOf x.va)
    let b ← v.needP (predOf x.vb)
    let m ← v.mask x
    let cnt := x.et.count
    pure (d.putPred n v (predOf x.vd) cnt m ((List.range cnt).map (fun i => plogHolds o (bit a i) (bit b i))))))

def execPset (c : At) (x : VF) (b : Bool) (s : State) := slotAct (.pset c x b) s (fun d =>
  d.vecOp c 1 (.pred (predOf x.vd) x.et.count) (fun d n v => do
    let m ← v.mask x
    let cnt := x.et.count
    pure (d.putPred n v (predOf x.vd) cnt m (List.replicate cnt b))))

/-! ### Conversion (R154) -/

/-- The flags NAN_OUT [0], INF_IN [1] and CLIP [2] of a conversion (Table 3.9). -/
def Conv.flags (r : Conv) : BitVec 6 :=
  BitVec.ofNat 6 (b2n r.nanOut + 2 * b2n r.infIn + 4 * b2n r.clip)

def Dev.orFlags (d : Dev) (n : Nat) (f : BitVec 6) : Dev :=
  d.updCore n (fun c => { c with convFlags := c.convFlags ||| f })

/-- VCVT: source format, PART and scale. DESIGN CHOICE: an element that PEN masks off raises the flags of its conversion like
any other (the spec does not say). -/
def execVcvt (c : At) (x : VF) (src : Fmt) (part : Fin 4) (scale : Int) (s : State) :=
  slotAct (.vcvt c x src part scale) s (fun d =>
  d.vecOp c x.et.cycles (.vec x.vd) (fun d n v => do
    require (!src.isCb && !x.et.isCb) .formatMismatch
    let ns := src.count
    let nd := x.et.count
    let ratio := if ns ≤ nd then nd / ns else ns / nd
    require (decide (part.val < ratio)) .descField
    let a ← v.needV x.va
    let m ← v.mask x
    let conv := (elems src.width ns a).map (fun e => convert x.et x.rnd x.novf scale (src.decode e))
    let used := if nd < ns then (conv.drop (part.val * nd)).take nd else conv
    let codes := used.map (·.code)
    let old := elems x.et.width nd ((v.rv x.vd).getD 0)
    let out := if nd ≤ ns then codes
      else old.take (part.val * ns) ++ codes ++ old.drop (part.val * ns + ns)
    let fl := used.foldl (fun f r => f ||| r.flags) 0#6
    pure ((d.putElems n v x.vd x.et.width m out).orFlags n fl)))

/-! ### Tables (R65, R155) -/

/-- Interpolation of R65, with rounding to nearest even at each step. -/
def TabBuf.lookup (t : TabBuf) (x : Val) : Val :=
  let entry (i : Nat) : Val := fp32 (t.t.getD i 0)
  let u := ((x.fsub (fp32 t.x0)).scale t.ls).fl
  match u with
  | .nan => .nan
  | _ =>
    if u.lt .zero then entry 0
    else if !u.lt (.ofInt 255) then entry 255
    else
      let i := u.floor.toNat
      let f := u.fsub (.ofInt i)
      (entry i).fadd (f.fmul ((entry (i + 1)).fsub (entry i)))

/-- A table buffer operand; an unwritten one halts with 0x40 + n in AUX (R155). -/
def Dev.needTb (d : Dev) (n : Nat) (tb : Fin 4) : Chk TabBuf :=
  match Tbl.find? (d.core n).tb tb.val with
  | some t => .ok t
  | none => haltWith .regUnset (0x40 + tb.val)

def execVlut (c : At) (x : VF) (tb : Fin 4) (s : State) := slotAct (.vlut c x tb) s (fun d =>
  d.vecOp c 1 (.vec x.vd) (fun d n v => do
    require (decide (x.et = .fp32)) .formatMismatch
    let t ← d.needTb n tb
    let a ← v.needV x.va
    let m ← v.mask x
    pure (d.putElems n v x.vd 32 m ((elems 32 128 a).map (fun e => (t.lookup (Fmt.fp32.decode e)).code32.toNat)))))

/-! ### Reduction and windows (R156, R157) -/

/-- log2 of the element count. -/
def Fmt.levels (f : Fmt) : Nat := if f.width = 32 then 7 else if f.width = 16 then 8 else 9

/-- The reduction operation on codes of ET (R156). -/
def redOp (x : VF) (o : RedOp) (a b : Nat) : Nat :=
  match o with
  | .sum => vElem x (fun l => ai l 0 + ai l 1) (fun l => (af l 0).add (af l 1)) [a, b]
  | .max => vElem x (fun l => if ai l 0 < ai l 1 then ai l 1 else ai l 0) (fun l => (af l 0).max (af l 1)) [a, b]
  | .min => vElem x (fun l => if ai l 1 < ai l 0 then ai l 1 else ai l 0) (fun l => (af l 0).min (af l 1)) [a, b]

/-- The identity that a masked element enters as (R156). -/
def redIdentity (et : Fmt) (o : RedOp) : Nat :=
  if et.isInt then
    match o with
    | .sum => 0
    | .max => unsgn et.width et.intMin
    | .min => unsgn et.width et.intMax
  else
    match o with
    | .sum => et.fp.pack true 0 0
    | .max => et.fp.infCode true
    | .min => et.fp.infCode false

def execVred (c : At) (x : VF) (o : RedOp) (s : State) := slotAct (.vred c x o) s (fun d =>
  d.vecOp c x.et.cycles (.vec x.vd) (res := if o = .sum then (byResidue x) else none) (fun d n v => do
    require x.et.arith .formatMismatch
    let a ← v.needV x.va
    let m ← v.mask x
    let cnt := x.et.count
    let src := ((List.range cnt).zip (elems x.et.width cnt a)).map (fun e =>
      match m with
      | some p => if bit p e.1 then e.2 else redIdentity x.et o
      | none => e.2)
    let r := (treeReduce (redOp x o) x.et.levels src).headD 0
    pure (d.putElems n v x.vd x.et.width none (r :: List.replicate (cnt - 1) 0))))

/-- The 2N elements of VA followed by those of VB, and the result of each window of `k` elements at stride `st`. -/
def windows (k st n : Nat) (f : List Nat → Nat) (xs : List Nat) : List Nat :=
  (List.range n).map (fun i => if i < n / st then f ((xs.drop (i * st)).take k) else 0)

def Dev.vWindow (d : Dev) (c : At) (x : VF) (k : Fin 8) (st : Fin 3) (f : Nat → List Nat → Nat) : Dev :=
  d.vecOp c x.et.cycles (.vec x.vd) (fun d n v => do
    require x.et.arith .formatMismatch
    let a ← v.needV x.va
    let b ← v.needV x.vb
    let m ← v.mask x
    let w := x.et.width
    let cnt := x.et.count
    pure (d.putElems n v x.vd w m
      (windows (k.val + 1) (pow2 st.val) cnt (f (k.val + 1)) (elems w cnt a ++ elems w cnt b))))

/-- The maximum of a window, under the VMAX rules. -/
def winMax (x : VF) (_k : Nat) (l : List Nat) : Nat :=
  match l with
  | [] => 0
  | [a] => redOp x .max a a
  | a :: t => t.foldl (redOp x .max) a

/-- The average of a window: in FP types the sum in order under RND, then one rounded division; in integer types the
exact sum divided once, rounded under RND and saturated. -/
def winAvg (x : VF) (k : Nat) (l : List Nat) : Nat :=
  match l with
  | [] => 0
  | a :: t =>
    if x.et.isInt then
      let sum := (l.map x.et.toInt).foldl (· + ·) 0
      let q : Int := (roundDiv x.rnd sum.natAbs k : Nat)
      x.et.fitInt true (if sum < 0 then -q else q)
    else
      let sum := t.foldl (fun acc e => (acc.add (x.et.decode e)).round x.et x.rnd) (x.et.decode a)
      match sum with
      | .fin neg m e => (x.et.fp.convRat x.rnd false neg m k e).code
      | y => fpCode x.et x.rnd y

/-- VWMAX: window size K = k + 1 and stride 2^st (R157). -/
def execVwmax (c : At) (x : VF) (k : Fin 8) (st : Fin 3) (s : State) :=
  slotAct (.vwmax c x k st) s (fun d => d.vWindow c x k st (winMax x))
def execVwavg (c : At) (x : VF) (k : Fin 8) (st : Fin 3) (s : State) :=
  slotAct (.vwavg c x k st) s (fun d => d.vWindow c x k st (winAvg x))

/-! ### Compatibility operations (R158, R159) -/

/-- The FP32 elements of a register as values. -/
def vals32 (v : VReg) : List Val := (elems 32 128 v).map Fmt.fp32.decode

/-- One box of R158: anchor, deltas, scales to corners. -/
def boxDecode (t : TabBuf) (a b c : List Val) (i : Nat) : List Val :=
  let g (l : List Val) (k : Nat) := af l (4 * i + k)
  let half : Val := .fin false 1 (-1)
  let cx2 := (g a 0).fadd (((g b 0).fmul (g c 0)).fmul (g a 2))
  let cy2 := (g a 1).fadd (((g b 1).fmul (g c 1)).fmul (g a 3))
  let w2 := (g a 2).fmul (t.lookup ((g b 2).fmul (g c 2)))
  let h2 := (g a 3).fmul (t.lookup ((g b 3).fmul (g c 3)))
  [cx2.fsub (w2.fmul half), cy2.fsub (h2.fmul half), cx2.fadd (w2.fmul half), cy2.fadd (h2.fmul half)]

def execVboxdec (c : At) (x : VF) (tb : Fin 4) (s : State) := slotAct (.vboxdec c x tb) s (fun d =>
  d.vecOp c 1 (.vec x.vd) (fun d n v => do
    require (decide (x.et = .fp32)) .formatMismatch
    let t ← d.needTb n tb
    let a ← v.needV x.va
    let b ← v.needV x.vb
    let e ← v.needV x.vc
    let m ← v.mask x
    let out := (List.range 32).flatMap (boxDecode t (vals32 a) (vals32 b) (vals32 e))
    pure (d.putElems n v x.vd 32 m (out.map (fun y => y.code32.toNat)))))

/-- Element k of box i. -/
def boxAt (l : List Val) (i k : Nat) : Val := af l (4 * i + k)

/-- fl(max(0, fl(p − q))). -/
def relu (p q : Val) : Val := Val.max .zero (p.fsub q)

def boxArea (l : List Val) (i : Nat) : Val :=
  (relu (boxAt l i 2) (boxAt l i 0)).fmul (relu (boxAt l i 3) (boxAt l i 1))

/-- Boxes i and j overlap by more than the threshold of R159. -/
def boxOver (l : List Val) (thr : Val) (i j : Nat) : Bool :=
  let iw := relu ((boxAt l i 2).min (boxAt l j 2)) ((boxAt l i 0).max (boxAt l j 0))
  let ih := relu ((boxAt l i 3).min (boxAt l j 3)) ((boxAt l i 1).max (boxAt l j 1))
  let ov := iw.fmul ih
  (thr.fmul (((boxArea l i).fadd (boxArea l j)).fsub ov)).lt ov

/-- The boxes kept, in priority order (R159). -/
def nmsKeep (l : List Val) (thr : Val) (n : Nat) : List Nat :=
  (List.range n).foldl (fun keep i => if keep.any (fun k => boxOver l thr k i) then keep else keep ++ [i]) []

def execVnms (c : At) (x : VF) (s : State) := slotAct (.vnms c x) s (fun d =>
  d.vecOp c 1 (.pred (predOf x.vd) 128) (fun d n v => do
    require (decide (x.et = .fp32)) .formatMismatch
    let cnt := (v.rs x.vc).toNat
    require (decide (cnt ≤ 32)) .nmsCount cnt
    let a ← v.needV x.va
    let m ← v.mask x
    let thr := fp32 ((v.rs x.vb).setWidth 32)
    let keep := nmsKeep (vals32 a) thr cnt
    pure (d.putPred n v (predOf x.vd) 128 m ((List.range 128).map (fun i => keep.contains i)))))

end Sys2Proof.Machine
end

