-- ==== Sys2Proof/Machine/Matrix.lean ====
section
/-! DEFINITION. The matrix slot: operand pairs, the weight feed, the arrays and their accumulators (chapter 2, R75 to R88,
R160 to R163). -/

namespace Sys2Proof.Machine

def slotMatrix : Nat := 2

/-! ### Operand pairs (Tables 2.3 and 2.4) -/

inductive LaneMode where
  | one | two | four
  deriving DecidableEq, Repr

/-- The lane mode of a pair of activation and weight formats; none where Table 2.4 does not list it (R40). -/
def laneMode (a w : Fmt) : Option LaneMode :=
  let byteAct := decide (a = .int8 ∨ a = .uint8) || a.isFp8
  match w with
  | .int8 | .fp8e4m3 | .fp8e5m2 | .fp6e2m3 | .fp6e3m2 | .cb3 | .cb4 => if byteAct then some .one else none
  | .int4 => if byteAct ∨ a = .int4 then some .two else none
  | .int2 | .fp4 => if byteAct then some .two else none
  | .bf16 => if a = .bf16 then some .four else none
  | .fp16 => if a = .fp16 then some .four else none
  | .int16 => if a = .int16 then some .four else none
  | _ => none

/-- Both operands are integers: the pair accumulates in INT32 (R41). -/
def intPair (a w : Fmt) : Bool := a.isInt && w.isInt

/-- Main-lane bytes of a weight vector (Table 2.3). -/
def mainBytes (w : Fmt) : Nat :=
  match w with
  | .fp6e2m3 | .fp6e3m2 => 96
  | .int2 | .cb4 => 64
  | .cb3 => 48
  | _ => 128

/-- Formats that may carry block shifts (R78). -/
def blockable (f : Fmt) : Bool :=
  match f with
  | .fp4 | .fp6e2m3 | .fp6e3m2 | .fp8e4m3 | .fp8e5m2 | .cb3 | .cb4 => true
  | _ => false

/-- Block sizes of the 2-bit codes BW and OB. -/
def blockSize (c : Nat) : Nat := 16 * pow2 c

def LaneMode.rows : LaneMode → Nat
  | .four => 64
  | _ => 128
def LaneMode.cols : LaneMode → Nat
  | .four => 32
  | _ => 64
def LaneMode.lanes : LaneMode → Nat
  | .two => 2
  | _ => 1

/-! ### Register sets (R46, R48, R55, R85) -/

/-- Key of a register set: array and set number. -/
def setKey (arr set : Nat) : Nat := 2 * arr + set

def Core.activeIdx (c : Core) (arr : Nat) : Nat := b2n (bit c.active.toNat arr)
def Core.activeSet (c : Core) (arr : Nat) : CellSet := Tbl.getD c.sets (setKey arr (c.activeIdx arr)) {}
def Core.shadowSet (c : Core) (arr : Nat) : CellSet := Tbl.getD c.sets (setKey arr (1 - c.activeIdx arr)) {}
def Core.setShadow (c : Core) (arr : Nat) (x : CellSet) : Core :=
  { c with sets := Tbl.set c.sets (setKey arr (1 - c.activeIdx arr)) x }

/-- The arrays of a mask, in ascending order. -/
def arrays (m : BitVec 4) : List Nat := (List.range 4).filter (fun a => bit m.toNat a)

/-- MSWAP in one array: the roles exchange; a set that becomes the shadow waits for its first row write (R46, R48). -/
def Core.swap (c : Core) (arr : Nat) : Core :=
  let c := { c with sets := Tbl.set c.sets (setKey arr (c.activeIdx arr)) { c.activeSet arr with fresh := true } }
  { c with active := c.active ^^^ BitVec.ofNat 4 (pow2 arr) }

/-- The number that tells one stationary row of the device from another. -/
def cellKey (n arr set row : Nat) : Nat := ((n * 4 + arr) * 2 + set) * 256 + row

/-- A stationary row read in a format: its image where it was written in that format, otherwise undefined bits (R48). -/
def CellSet.rowBits (s : CellSet) (epoch key row : Nat) (f : Fmt) : Nat :=
  match Tbl.find? s.rows row with
  | some r => if r.fmt = f then r.bits.toNat else (Config.cellBits epoch (key + row)).toNat
  | none => (Config.cellBits epoch (key + row)).toNat

/-- A BF16 subnormal enters an array as zero of its sign (R44). -/
def flushBf16 (code : Nat) : Nat := if bits code 7 8 = 0 then b2n (bit code 15) * pow2 15 else code

/-- The value of an array operand. -/
def operandVal (f : Fmt) (code : Nat) : Val := if f = .bf16 then f.decode (flushBf16 code) else f.decode code

/-- A block-shift code: none marks the block as NaN (R77). -/
def shiftOf (code : Nat) : Option Int := if code % 256 = 128 then none else some (sgn 8 code)

/-! ### The weight feed (R81, R82, R87, R88) -/

/-- A side-lane record: block-shift codes and outlier weights; and what it leaves in the feed. -/
structure SideRec where
  cb     : Option Codebook
  shifts : List Nat
  outw   : List Nat
  used   : Nat

inductive RecRes where
  | more
  | bad (r : HaltReason)
  | ok (x : SideRec)

/-- Parse the codebook part of a record: the current codebook after it, and the bytes it takes. -/
def parseCodebook (wf : Fmt) (cur : Option Codebook) (l : List Byte) : Except (Option HaltReason) (Option Codebook × Nat) :=
  if !wf.isCb then .ok (cur, 0)
  else
    let cb4 := decide (wf = .cb4)
    match l with
    | [] => .error none
    | h :: t =>
      if 2 ≤ h.toNat then .error (some .reservedField)
      else if h.toNat = 1 then
        let k := if cb4 then 16 else 8
        if t.length < k then .error none
        else .ok (some { cb4 := cb4, bytes := (t.take k).map (·.toNat) }, 1 + k)
      else
        match cur with
        | some c => if c.cb4 = cb4 then .ok (cur, 1) else .error (some .formatMismatch)
        | none => .error (some .formatMismatch)

/-- Parse one record (Table 3.5). -/
def parseRec (wf : Fmt) (bw marked : Nat) (cur : Option Codebook) (l : List Byte) : RecRes :=
  match parseCodebook wf cur l with
  | .error none => .more
  | .error (some r) => .bad r
  | .ok (cb, k) =>
    let l := l.drop k
    let ns := if bw = 0 then 0 else 128 / bw
    if l.length < ns + 2 * marked then .more
    else
      .ok { cb := cb, shifts := (l.take ns).map (·.toNat),
            outw := (List.range marked).map (fun i => leNat ((l.drop (ns + 2 * i)).take 2)),
            used := k + ns + 2 * marked }

/-- Parse the records of a vector: one, or two in two-lane mode. -/
def parseRecs (wf : Fmt) (bw marked : Nat) : Nat → Option Codebook → List Byte → Except (Option HaltReason) (List SideRec)
  | 0, _, _ => .ok []
  | k + 1, cur, l =>
    match parseRec wf bw marked cur l with
    | .more => .error none
    | .bad r => .error (some r)
    | .ok x =>
      match parseRecs wf bw marked k x.cb (l.drop x.used) with
      | .ok t => .ok (x :: t)
      | .error e => .error e

/-- The weight of row k in lane L of a main-lane vector (R81, R87). -/
def weightVal (wf : Fmt) (mode : LaneMode) (cb : Option Codebook) (main : Nat) (k lane : Nat) : Val :=
  let idx := if mode = .two then 2 * k + lane else k
  let code := bits main (wf.width * idx) wf.width
  if wf.isCb then
    match cb with
    | some c => Fmt.fp8e4m3.decode (arg 0 c.bytes code)
    | none => .nan
  else operandVal wf code

/-! ### Sums (R54, R57, R59, R60) -/

/-- A floating-point product with the block shifts of its operands. -/
def product (x w : Val) (sx sw : Option Int) : Val :=
  match sx, sw with
  | some a, some b => ((x.mul w).scale (a + b)).fl
  | _, _ => .nan

/-- What a column's sum needs of its array's active set. -/
structure SetView where
  set : CellSet
  epoch : Nat
  key : Nat
  fmt : Fmt
  ba : Nat

def SetView.cell (s : SetView) (k col : Nat) : Nat :=
  bits (s.set.rowBits s.epoch s.key k s.fmt) (s.fmt.width * col) s.fmt.width

/-- The activation block shift of a row's block and a column (R77, R79). -/
def SetView.shift (s : SetView) (k col : Nat) : Option Int :=
  if s.ba = 0 then some 0 else shiftOf (bits (Tbl.getD s.set.blk (k / s.ba) 0#512).toNat (8 * col) 8)

def SetView.disabled (s : SetView) (k : Nat) : Bool := s.set.disabled.contains k

/-- The floating-point column sum, in row order from +0.0 (R59). -/
def SetView.fpSum (s : SetView) (rows col : Nat) (w : List Val) (sw : Nat → Option Int) : Val :=
  ((List.range rows).zip w).foldl (fun acc e =>
    if s.disabled e.1 then acc.fadd .zero
    else acc.fadd (product (operandVal s.fmt (s.cell e.1 col)) e.2 (s.shift e.1 col) (sw e.1))) .zero

/-- The exact integer column sum (R54). -/
def SetView.intSum (s : SetView) (rows col : Nat) (w : List Int) : Int :=
  ((List.range rows).zip w).foldl (fun acc e =>
    if s.disabled e.1 then acc else acc + s.fmt.toInt (s.cell e.1 col) * e.2) 0

/-- The running residue sum of a column's products (R317); a disabled row adds none (R85). -/
def SetView.resSum (s : SetView) (rows col : Nat) (w : List Int) : Nat :=
  ((List.range rows).zip w).foldl (fun acc e =>
    if s.disabled e.1 then acc else (acc + residue e.2 * residue (s.fmt.toInt (s.cell e.1 col))) % 7) 0

/-- The side sum of a column (R57). -/
def SetView.sideSum (s : SetView) (n arr set col : Nat) (outw : List Nat) : Val :=
  ((List.range outw.length).zip outw).foldl (fun acc e =>
    let row := match Tbl.find? s.set.side e.1 with
      | some b => b.toNat
      | none => (Config.sideBits s.epoch (cellKey n arr set e.1)).toNat
    let x := operandVal .bf16 (bits row (16 * col) 16)
    acc.fadd ((x.mul (operandVal .bf16 e.2)).fl)) .zero

/-! ### Accumulators (R52 to R54) -/

/-- An accumulator entry; one that nothing has written holds undefined bits under an undefined tag (R53). -/
def Dev.accEntry (d : Dev) (n arr ent : Nat) : AccEntry :=
  match Tbl.find? (d.core n).acc (accKey arr ent) with
  | some e => e
  | none =>
    let k := n * 4096 + accKey arr ent
    { fp := Config.accTagFp d.epoch k, cols := Config.accBits d.epoch k }

def Dev.setAcc (d : Dev) (n arr ent : Nat) (e : AccEntry) : Dev :=
  d.updCore n (fun c => { c with acc := Tbl.set c.acc (accKey arr ent) e })

/-- An entry is written anew: its uncorrectable words are gone (R186). -/
def Dev.healAcc (d : Dev) (n key : Nat) : Dev :=
  if (d.core n).accBad.contains key then d.updCore n (fun c => { c with accBad := c.accBad.filter (· ≠ key) }) else d

/-- Column `i` of an entry. -/
def AccEntry.col (e : AccEntry) (i : Nat) : Nat := bits e.cols.toNat (32 * i) 32

/-- 64 words of 32 bits as an entry's columns. -/
def packWords (l : List Nat) : Nat := l.foldr (fun x acc => x % pow2 32 + pow2 32 * acc) 0

/-- Raise bit `k` of STICKY (R122) for an operation of the bundle that `ord` bundles precede: the bundle in issue sees it if
it is a later one (R112). -/
def Core.setSticky (c : Core) (ord k : Nat) : Core :=
  let m := BitVec.ofNat 2 (pow2 k)
  { c with
    sticky := c.sticky ||| m
    cur := c.cur.map (fun b =>
      if ord < b.view.retired.toNat then { b with view := { b.view with sticky := b.view.sticky ||| m } }
      else { b with raised := b.raised ||| m }) }

def Dev.setSticky (d : Dev) (n ord k : Nat) : Dev := d.updCore n (fun c => c.setSticky ord k)

/-- Bundles before the one in issue. -/
def Core.ord (c : Core) : Nat := (c.cur.map (fun b => b.view.retired.toNat)).getD 0

/-- An incoming column result: exact integer, or FP32 value. -/
inductive Incoming where
  | int (i : Int)
  | fp (x : Val)

/-- The stored word, and whether an exact integer result lay outside INT32 (R54, R59). -/
def combine (add : Bool) (old : Nat) (x : Incoming) : Nat × Bool :=
  match x with
  | .int i =>
    let r := if add then sgn 32 old + i else i
    (unsgn 32 r, decide (r < -(pow2 31 : Int) ∨ (pow2 31 : Int) ≤ r))
  | .fp y => if add then ((fp32 (BitVec.ofNat 32 old)).fadd y |>.code32.toNat, false) else (y.code32.toNat, false)

/-- The bits that a fault inverts at a place; 0 for none. -/
def flipAt (l : List Flip) (x : Site) : Nat := ((l.find? (fun f => f.site = x)).map (·.mask)).getD 0

/-- A place of an array's entry and column. -/
def sumSite (arr ent col : Nat) : Site := .sum (Fin.ofNat 4 arr) (Fin.ofNat 1024 ent) (Fin.ofNat 64 col)
def addSite (arr ent col : Nat) : Site := .add (Fin.ofNat 4 arr) (Fin.ofNat 1024 ent) (Fin.ofNat 64 col)

/-- An accumulator word as it is written, and whether the check of the SET or ADD fails (R317). -/
def flipWord (fp : Bool) (mask w : Nat) : Nat × Bool :=
  if mask % pow2 32 = 0 then (w, false)
  else
    let x := flipCode 32 mask w
    (x, if fp then Fmt.fp32.fp.fails w x else intFails (residue (sgn 32 w)) (sgn 32 x))

/-- How one vector's write into an entry ends. -/
inductive AccRes where
  | ok (d : Dev)
  /-- An ADD meets another tag (R53). -/
  | tag
  /-- An ADD reads an uncorrectable word (R186). -/
  | ecc
  /-- A check fails (R317). -/
  | miss

/-- Write one vector's results into an entry of one array. A SET of all 64 columns replaces every word of the entry. -/
def Dev.accWrite (d : Dev) (n ord arr ent : Nat) (add fp : Bool) (xs : List Incoming) : AccRes :=
  let e := d.accEntry n arr ent
  if add ∧ (d.core n).accBad.contains (accKey arr ent) then .ecc
  else if add ∧ e.fp ≠ fp then .tag
  else
    let fl := (d.core n).flips
    let out := (List.range 64).map (fun i =>
      match xs[i]? with
      | some x =>
        let r := combine add (e.col i) x
        (flipWord fp (flipAt fl (addSite arr ent i)) r.1, r.2)
      | none => ((e.col i, false), false))
    if out.any (·.1.2) then .miss
    else
      let d := d.setAcc n arr ent { fp := fp, cols := BitVec.ofNat 2048 (packWords (out.map (·.1.1))), open_ := true }
      let d := if !add && xs.length = 64 then d.healAcc n (accKey arr ent) else d
      .ok (if out.any (·.2) then d.setSticky n ord 0 else d)

/-! ### One vector of a stream -/

inductive VecRes where
  | wait
  | halt (d : Dev) (r : HaltReason) (aux : Nat)
  /-- A check of the array fails. -/
  | miss (d : Dev) (arr : Nat)
  | ok (d : Dev)

/-- Device address of a core-memory offset. -/
def coreAddr (n off : Nat) : Nat := coreBase n + off
def coreSize : Nat := 0x1000000

/-- E[m] of a lane of vector j, where the join needs it (R162): none where it is out of range. -/
def Dev.joinExp (d : Dev) (n : Nat) (st : Stream) (lane : Nat) : Chk Int :=
  let off := st.jexp + (if laneMode st.afmt st.wfmt = some .two then 2 * st.j + lane else st.j)
  if coreSize ≤ off then haltWith .addressRange (coreAddr n off)
  else match d.poisoned (coreAddr n off) 1 with
    | some a => haltWith .eccUncorrectable a
    | none =>
      let e := sgn 8 (d.see (agentCore n) (coreAddr n off)).toNat
      if e < -126 ∨ 126 < e then haltWith .reservedField else .ok e

/-- The incoming results of one lane of one array for an entry, each with whether the check of its column sum fails
(R317). -/
def Dev.columnResults (d : Dev) (n arr ent : Nat) (st : Stream) (mode : LaneMode) (main lane : Nat) (r : SideRec) (ej : Int) :
    List (Incoming × Bool) :=
  let c := d.core n
  let set := c.activeIdx arr
  let cs := c.activeSet arr
  let sv : SetView :=
    { set := cs, epoch := d.epoch, key := cellKey n arr set 0, fmt := st.afmt, ba := (cs.tag.map (·.2)).getD 0 }
  let sw (k : Nat) : Option Int := if st.bw = 0 then some 0 else shiftOf (arg 0 r.shifts (k / st.bw))
  let fault (col : Nat) : Nat := flipAt c.flips (sumSite arr ent col)
  if intPair st.afmt st.wfmt then
    let w := (List.range mode.rows).map (fun k =>
      st.wfmt.toInt (bits main (st.wfmt.width * (if mode = .two then 2 * k + lane else k)) st.wfmt.width))
    (List.range mode.cols).map (fun col =>
      let x := sv.intSum mode.rows col w
      let m := fault col
      let s := if m = 0 then x else flipInt m x
      let bad := if m = 0 then false else intFails (sv.resSum mode.rows col w) s
      if st.outl then
        (.fp ((((Val.ofInt s).scale ej).fl).fadd (sv.sideSum n arr set col r.outw)), bad)
      else (.int s, bad))
  else
    let w := (List.range mode.rows).map (fun k => weightVal st.wfmt mode r.cb main k lane)
    (List.range mode.cols).map (fun col =>
      let x := sv.fpSum mode.rows col w sw
      let m := fault col
      let s := if m = 0 then (x, false) else Val.flip true m x
      if st.outl then (.fp (s.1.fadd (sv.sideSum n arr set col r.outw)), s.2) else (.fp s.1, s.2))

/-- The faults of an entry of an array have struck. -/
def Core.spend (c : Core) (p : Site → Bool) : Core :=
  if c.flips = [] then c else { c with flips := c.flips.filter (fun f => !p f.site) }

/-- A place of the array's sums or accumulator adds for an entry. -/
def Site.ofEntry (arr ent : Nat) : Site → Bool
  | .sum a e _ => decide (a.val = arr ∧ e.val = ent)
  | .add a e _ => decide (a.val = arr ∧ e.val = ent)
  | _ => false

/-- Write the results of lane L of vector j in every selected array, in ascending order. DESIGN CHOICE: where an array's
write halts or fails its check, no array keeps this lane's results, and earlier lanes' stay (the spec does not say which
writes of the vector stand). -/
def Dev.writeLane (d : Dev) (n : Nat) (st : Stream) (mode : LaneMode) (main : Nat) (e : Nat × SideRec) (ej : Int) : VecRes :=
  let ent := st.base + st.j * mode.lanes + e.1
  let fp := st.outl || !intPair st.afmt st.wfmt
  (arrays st.amask).foldl (fun acc arr =>
    match acc with
    | .ok d' =>
      let xs := d'.columnResults n arr ent st mode main e.1 e.2 ej
      let spent (d : Dev) : Dev := d.updCore n (fun c => c.spend (Site.ofEntry arr ent))
      if xs.any (·.2) then .miss (spent d) arr
      else match d'.accWrite n st.ord arr ent st.add fp (xs.map (·.1)) with
        | .ok d'' => .ok (spent d'')
        | .tag => .halt d .formatMismatch 0
        | .ecc => .halt (d.eccEvent (d.jobOf n) (d.physUnit n arr) 0) .eccUncorrectable 0
        | .miss => .miss (spent d) arr
    | x => x) (.ok d)

/-- Vector j enters with its main-lane bytes and records; its results reach the accumulators. -/
def Dev.enterVector (d : Dev) (n : Nat) (st : Stream) (mode : LaneMode) (main : List Byte) (recs : List SideRec) : VecRes :=
  let m := leNat main
  let cb := (recs.getLast?.map (·.cb)).getD none
  let d := if st.wfmt.isCb then d.updCore n (fun c => { c with codebook := cb }) else d
  let needE := st.outl && intPair st.afmt st.wfmt && decide (st.amask ≠ 0)
  ((List.range recs.length).zip recs).foldl (fun acc e =>
    match acc with
    | .ok d' =>
      match (if needE then d.joinExp n st e.1 else .ok 0) with
      | .error x =>
        .halt (if x.1 = .eccUncorrectable then d'.eccEvent (d'.jobOf n) (addrUnit x.2) x.2 else d') x.1 x.2
      | .ok ej =>
        d'.writeLane n st mode m e ej
    | x => x) (.ok d)

/-- Try to let the next vector of the stream enter. -/
def Dev.nextVector (d : Dev) (n : Nat) (st : Stream) : VecRes :=
  match laneMode st.afmt st.wfmt with
  | none => .halt d .formatMismatch 0
  | some mode =>
    let nb := mainBytes st.wfmt
    let c := d.core n
    if st.feed then
      if c.feedMain.length < nb then .wait
      else match parseRecs st.wfmt st.bw st.marked mode.lanes c.codebook c.feedSide with
        | .error none => .wait
        | .error (some r) => .halt d r 0
        | .ok recs =>
          let used := (recs.map (·.used)).foldl (· + ·) 0
          let main := c.feedMain.take nb
          let d := d.updCore n (fun c => { c with feedMain := c.feedMain.drop nb, feedSide := c.feedSide.drop used })
          d.enterVector n st mode main recs
    else
      let a := coreAddr n (st.waddr + st.j * nb)
      match d.poisoned a nb with
      | some x => .halt (d.eccEvent (d.jobOf n) (addrUnit x) x) .eccUncorrectable x
      | none =>
        let sa := coreAddr n st.spos
        let avail := Nat.min 64 (coreSize - st.spos)
        let side := d.bytes (agentCore n) sa avail
        match parseRecs st.wfmt st.bw st.marked mode.lanes c.codebook side with
        | .error none => .halt d .addressRange (coreAddr n coreSize)
        | .error (some r) => .halt d r 0
        | .ok recs =>
          let used := (recs.map (·.used)).foldl (· + ·) 0
          match d.poisoned sa used with
          | some x => .halt (d.eccEvent (d.jobOf n) (addrUnit x) x) .eccUncorrectable x
          | none =>
            let d := d.updCore n (fun c => { c with stream := c.stream.map (fun s => { s with spos := st.spos + used }) })
            d.enterVector n st mode (d.bytes (agentCore n) a nb) recs

/-! ### Issue from the matrix queue (R160) -/

/-- The matrix operation of the oldest bundle that waits for it has issued. -/
def markFirst : List InFlight → List InFlight × Bool
  | [] => ([], false)
  | b :: t =>
    if b.queued && !bit b.issued.toNat slotMatrix then ({ b with issued := b.issued ||| 4#6 } :: t, true)
    else ((b :: (markFirst t).1), (markFirst t).2)

def Core.markMatrix (c : Core) : Core :=
  let r := markFirst c.older
  if r.2 then { c with older := r.1 }
  else { c with cur := c.cur.map (fun b => if b.queued then { b with issued := b.issued ||| 4#6 } else b) }

/-- A descriptor of `size` bytes in the issuing core's memory (R145): its bytes. -/
def Dev.descriptor (d : Dev) (n a size : Nat) : Chk (List Byte) := do
  require (inCore n a) .addressRange a
  require (decide (a % size = 0)) .misaligned a
  match d.poisoned a size with
  | some x => haltWith .eccUncorrectable x
  | none => pure (d.bytes (agentCore n) a size)

/-- The checks of an MSTREAM at issue, in the order of R146, and the stream that it starts (R53, R160 to R162, R166). -/
def Dev.startStream (d : Dev) (n : Nat) (e : MEntry) (amask : BitVec 4) (add outl feed : Bool) (base v : Nat) (desc : Addr) :
    Chk Stream := do
  let l ← d.descriptor n desc.toNat 16
  let w0 := wordAt l 0
  let w1 := wordAt l 4
  let w2 := wordAt l 8
  let w3 := wordAt l 12
  require (decide (bits w0 11 21 = 0 ∧ bits w1 24 8 = 0 ∧ bits w2 24 8 = 0 ∧ bits w3 24 8 = 0)) .reservedField
  let wf := Fmt.ofCode (bits w0 0 4)
  let af := Fmt.ofCode (bits w0 4 4)
  let blk := decide (bits w0 8 1 = 1)
  let c := d.core n
  let sel := arrays amask
  require (laneMode af wf).isSome .formatMismatch
  require (!blk || blockable wf) .formatMismatch
  require (sel.all (fun a => decide ((c.activeSet a).tag.map (·.1) = some af))) .formatMismatch
  require (decide (bits w0 9 2 ≠ 3)) .descField desc.toNat
  let waddr := bits w1 0 24
  require (feed || decide (waddr + v * mainBytes wf ≤ coreSize)) .addressRange (coreAddr n coreSize)
  require (feed || decide (waddr % 64 = 0)) .misaligned (coreAddr n waddr)
  require (decide (laneMode af wf ≠ some .two ∨ base + 2 * v ≤ 1024)) .arrayState
  let marked := (sel.head?.map (fun a => (c.activeSet a).marked)).getD 0
  require (sel.all (fun a => decide ((c.activeSet a).marked = marked))) .arrayState
  pure { amask := amask, add := add, outl := outl, feed := feed, base := base, v := v, wfmt := wf, afmt := af,
         bw := if blk then blockSize (bits w0 9 2) else 0, waddr := waddr, spos := bits w2 0 24,
         jexp := bits w3 0 24, marked := marked, j := 0, ord := e.ord, pos := e.pos }

/-- A drain, or a MARD, which counts as one (R163), has read an entry: it is no longer to be drained (R132). -/
def Dev.closeAcc (d : Dev) (n arr ent : Nat) : Dev :=
  match Tbl.find? (d.core n).acc (accKey arr ent) with
  | some e => if e.open_ then d.setAcc n arr ent { e with open_ := false } else d
  | none => d

/-- The array whose bank an operation reads. -/
def MOp.unit : MOp → Nat
  | .mard arr .. => arr.val
  | _ => 0

/-- An operation leaves the head of the matrix queue (R160, R163). -/
def Dev.issueMatrix (d : Dev) (n : Nat) (e : MEntry) : Chk Dev :=
  match e.op with
  | .mstream am add outl feed base v desc => do
    let st ← d.startStream n e am add outl feed base v desc
    pure (d.updCore n (fun c => { c with stream := some st }))
  | .mswap am => .ok (d.updCore n (fun c => (arrays am).foldl (fun c a => c.swap a) c))
  | .mclr am base cnt fp => do
    require (decide (1 ≤ cnt ∧ cnt ≤ 1024)) .countRange cnt
    require (decide (base + cnt ≤ 1024)) .arrayState
    pure ((arrays am).foldl (fun d a =>
      (List.range cnt).foldl (fun d i =>
        (d.setAcc n a (base + i) { fp := fp, cols := 0, open_ := true }).healAcc n (accKey a (base + i))) d) d)
  | .mard arr ent vd half =>
    if (d.core n).accBad.contains (accKey arr.val ent) then haltWith .eccUncorrectable 0 else
    let e := (d.accEntry n arr.val ent).cols.toNat
    let d := d.closeAcc n arr.val ent
    let old := elems 32 128 ((Tbl.find? (d.core n).v vd.val).getD 0)
    let new := (List.range 64).map (fun i => bits e (32 * i) 32)
    .ok (d.wv n vd (packElems 32 (if half then old.take 64 ++ new else new ++ old.drop 64)))
  | .mawr arr ent data fp =>
    .ok ((d.setAcc n arr.val ent { fp := fp, cols := data, open_ := true }).healAcc n (accKey arr.val ent))

end Sys2Proof.Machine
end

