-- ==== Sys2Proof/Machine/Regulator.lean ====
section
/-! DEFINITION. The bandwidth regulator and the memory controller (R186 to R192, R202 to R205, R208). -/

namespace Sys2Proof.Machine

/-! ### Buckets (R203) -/

def defaultBurst : Nat := 0x20000

/-- RATE, BURST and level of a bucket: a core's, or 8 + a context's. -/
def Dev.bRate (d : Dev) (t : Nat) : Nat :=
  if t < 8 then d.fld (Reg.CCn_BWR_RATE t) Fld.CCn_BWR_RATE_RATE else Tbl.getD d.ctxRate (t - 8) 0
def Dev.bBurst (d : Dev) (t : Nat) : Nat :=
  if t < 8 then d.fld (Reg.CCn_BWR_BURST t) Fld.CCn_BWR_BURST_BURST else Tbl.getD d.ctxBurst (t - 8) defaultBurst
def Dev.bLevel (d : Dev) (t : Nat) : Nat :=
  if t < 8 then (d.core t).level else Tbl.getD d.ctxLevel (t - 8) (100 * defaultBurst)

def Dev.setLevel (d : Dev) (t l : Nat) : Dev :=
  if t < 8 then d.updCore t (fun c => { c with level := l }) else { d with ctxLevel := Tbl.set d.ctxLevel (t - 8) l }

/-- The level is clamped to a new burst (R203). -/
def Dev.clampLevel (d : Dev) (t : Nat) : Dev := d.setLevel t (Nat.min (d.bLevel t) (100 * d.bBurst t))

/-- A RATE or BURST takes effect. -/
def Dev.setBucket (d : Dev) (t : Nat) (burst : Bool) (v : Nat) : Dev :=
  let d :=
    if t < 8 then
      if burst then d.setFld (Reg.CCn_BWR_BURST t) Fld.CCn_BWR_BURST_BURST v
      else d.setFld (Reg.CCn_BWR_RATE t) Fld.CCn_BWR_RATE_RATE v
    else if burst then { d with ctxBurst := Tbl.set d.ctxBurst (t - 8) v }
    else { d with ctxRate := Tbl.set d.ctxRate (t - 8) v }
  d.clampLevel t

/-- The bucket passes a request of `n` bytes: a bucket of RATE 0 is off. -/
def Dev.passes (d : Dev) (t n : Nat) : Bool := decide (d.bRate t = 0 ∨ 100 * n ≤ d.bLevel t)

/-- Take `n` bytes out of a bucket that is on. -/
def Dev.take (d : Dev) (t n : Nat) : Dev := if d.bRate t = 0 then d else d.setLevel t (d.bLevel t - 100 * n)

/-- Every bucket level rises by RATE up to its burst (R203); writes accepted since the last edge take effect first. -/
def Dev.refill (d : Dev) : Dev :=
  let d := d.bwrPend.foldl (fun d e => d.setBucket e.1 e.2.1 e.2.2) d
  let d := { d with bwrPend := [] }
  let d := if d.pm.metered ∧ d.pm.memRate ≠ 0 then
      { d with pm := { d.pm with memLevel := Nat.min (d.pm.memLevel + d.pm.memRate) 6553600 } } else d
  let ts := (List.range 8) ++ (Tbl.keys d.ctxRate).map (· + 8)
  ts.foldl (fun d t =>
    if d.bRate t = 0 then d else d.setLevel t (Nat.min (d.bLevel t + d.bRate t) (100 * d.bBurst t))) d

/-! ### Metered requests (R202 to R204) -/

/-- The buckets that meter core n: its own and its context's. -/
def Dev.bucketsOf (d : Dev) (n : Nat) : List Nat :=
  match d.jobOf n with
  | some (_, j) => [n, 8 + j.ctx]
  | none => [n]

/-- The power manager's device bucket allows a request (R355): off, or RATE 0, or its level holds it. -/
def Dev.memAllows (d : Dev) (n : Nat) : Bool := !d.pm.metered || decide (d.pm.memRate = 0 ∨ 100 * n ≤ d.pm.memLevel)

/-- A request leaves the device bucket. -/
def Dev.memTake (d : Dev) (n : Nat) : Dev :=
  if d.pm.metered ∧ d.pm.memRate ≠ 0 then { d with pm := { d.pm with memLevel := d.pm.memLevel - 100 * n } } else d

/-- A request issues: its bytes leave the buckets, and the core is the last that issued against the context's (R204). -/
def Dev.charge (d : Dev) (n bytes : Nat) : Dev :=
  let d := ((d.bucketsOf n).foldl (fun d t => d.take t bytes) d).memTake bytes
  match d.jobOf n with
  | some (_, j) => { d with ctxLast := Tbl.set d.ctxLast j.ctx n }
  | none => d

/-- The largest request that the model charges at once: one DMA transfer (R193). -/
def reqSize : Nat := 256

def Dev.allows (d : Dev) (n bytes : Nat) : Bool := (d.bucketsOf n).all (fun t => d.passes t bytes) && d.memAllows bytes

/-- Cores of one context that hold a metered request, in the order of R204. -/
def Dev.heldOrder (d : Dev) (ctx : Nat) : List Nat :=
  let last := match Tbl.find? d.ctxLast ctx with
    | some c => c + 1
    | none => 0
  ((List.range 8).map (fun i => (last + i) % 8)).filter (fun n =>
    (d.core n).held.isSome &&
    (match d.jobOf n with
     | some (_, j) => decide (j.ctx = ctx)
     | none => false))

/-- The next request of a held access. -/
def Dev.heldReq (d : Dev) (n : Nat) : Nat :=
  match (d.core n).held with
  | some (_, left) => Nat.min reqSize left
  | none => 0

/-- Core n's request of `bytes` bytes may issue now: its buckets allow it, and no core that goes before it holds a request that
may issue (R204). -/
def Dev.mayIssue (d : Dev) (n bytes : Nat) : Bool :=
  d.allows n bytes &&
  (match d.jobOf n with
   | some (_, j) =>
     let place (m : Nat) : Nat :=
       (m + 8 - (match Tbl.find? d.ctxLast j.ctx with
         | some c => c + 1
         | none => 0) % 8) % 8
     (d.heldOrder j.ctx).all (fun m => m = n || decide (place n < place m) || !d.allows m (d.heldReq m))
   | none => true)

/-- Issue an access's requests until it is whole or a bucket denies one; the answer is the bytes still to be granted. -/
def Dev.grant (d : Dev) (n : Nat) : Nat → Nat → Dev × Nat
  | 0, left => (d, left)
  | k + 1, left =>
    if left = 0 then (d, 0)
    else
      let r := Nat.min reqSize left
      if d.mayIssue n r then (d.charge n r).grant n k (left - r) else (d, left)

/-- A metered access of `bytes` bytes by a slot (5: the drain path; from 6 on: a DMA descriptor): true when every request of it has issued. While
another access of the core is held, a later one waits (R203). -/
def Dev.meter (d : Dev) (n slot bytes : Nat) : Dev × Bool :=
  if bytes = 0 then (d, true)
  else
    let c := d.core n
    match c.held with
    | some (s, left) =>
      if s ≠ slot then (d, false)
      else
        let r := d.grant n (left / reqSize + 1) left
        if r.2 = 0 then (r.1.updCore n (fun c => { c with held := none }), true)
        else (r.1.updCore n (fun c => { c with held := some (slot, r.2) }), false)
    | none =>
      let r := d.grant n (bytes / reqSize + 1) bytes
      if r.2 = 0 then (r.1, true) else (r.1.updCore n (fun c => { c with held := some (slot, r.2) }), false)

/-- Bytes charged for an access (R202): none outside LPDDR6, whole 32-byte units inside. -/
def Dev.charged (d : Dev) (a len : Nat) : Nat := if len ≠ 0 && isLp d.cap48 a then ceilDiv len 32 * 32 else 0

/-- The held request of a core issues when it may (R204); `cycles` NCLK it was held are counted. -/
def Dev.regulated (d : Dev) (n cycles : Nat) : Dev :=
  match (d.core n).held with
  | none => d
  | some (slot, left) =>
    let d := d.addReg (Reg.CCn_BWR_HELD n) cycles
    let r := Nat.min reqSize left
    if d.mayIssue n r then (d.charge n r).updCore n (fun c => { c with held := some (slot, left - r) }) else d

/-! ### Writes of the buckets (R205, R208) -/

/-- Whether a bucket write is refused: who writes, what, and the other half as it will stand. -/
def Dev.bucketRefused (d : Dev) (p : Port) (t : Nat) (burst : Bool) (v : Nat) : Bool :=
  let pend (b : Bool) (z : Nat) := d.bwrPend.foldl (fun acc e => if e.1 = t ∧ e.2.1 = b then e.2.2 else acc) z
  let rate := if burst then pend false (d.bRate t) else v
  let bst := if burst then v else pend true (d.bBurst t)
  !d.holdsSem0 p || (8 ≤ t && (Tbl.find? d.ctxs (t - 8)).isNone) ||
    decide (bst < 256 ∧ rate ≠ 0) || decide (16777216 < bst)

/-- BWR_BUCKET_WRITE: a core's bucket, or the bucket of the context in MC_BWR_CTX_SEL. -/
def execBwrBucketWrite (p : Port) (core : Option (Fin 8)) (burst : Bool) (v : Word) (s : State) := act s (fun d =>
  let t := match core with
    | some n => n.val
    | none => 8 + d.fld Reg.MC_BWR_CTX_SEL Fld.MC_BWR_CTX_SEL_CONTEXT
  let x := if burst then v.toNat % pow2 25 else v.toNat % pow2 20
  if d.bucketRefused p t burst x then d.raise Reg.MC_BWR_STATUS Fld.MC_BWR_STATUS_WR_REJECT
  else { d with bwrPend := d.bwrPend ++ [(t, burst, x)] })

/-! ### The memory controller's own work (R191) -/

/-- SCRUB: a scrub pass over every fitted unit: every unit is read, `fixed` units hold a corrected error and are written
back. -/
def execScrub (fixed : List Addr) (s : State) := act s (fun d =>
  let d := d.add64 Reg.MC_RD_BYTES_LO Reg.MC_RD_BYTES_HI (lpBytes d.cap48)
  let l := fixed.filter (fun a => isLp d.cap48 a.toNat && !(d.poison.contains (eccBase a.toNat)))
  let d := d.add64 Reg.MC_WR_BYTES_LO Reg.MC_WR_BYTES_HI (32 * l.length)
  let d := if l = [] then d else d.corrected 49 l.length ((l.getLast?.map (·.toNat)).getD 0)
  d.raise Reg.MC_STATUS Fld.MC_STATUS_SCRUB_DONE)

/-- DOUBLED_REFRESH: some LPDDR6 device requires doubled refresh, or none does any more. -/
def execDoubledRefresh (on : Bool) (s : State) := act s (fun d =>
  d.setFld Reg.MC_STATUS Fld.MC_STATUS_REFRESH_X2 (b2n on))

end Sys2Proof.Machine
end

