-- ==== Sys2Proof/Machine/LoadStore.lean ====
section
/-! DEFINITION. The load slot and the plain stores of the store slot (R144, R164 to R172, R210 to R218). -/

namespace Sys2Proof.Machine

def slotLoad : Nat := 3
def slotStore : Nat := 4

/-! ### Accesses -/

/-- Every byte of an access is mapped and not reserved (R19), and the access is aligned (R144). DESIGN CHOICE: where both rules
are broken ADDRESS_RANGE is reported (R146 puts the two reasons in one step and gives them no order). -/
def Dev.access (d : Dev) (a size align : Nat) : Chk Unit :=
  match d.firstBad a size with
  | some x => haltWith .addressRange x
  | none => require (decide (a % align = 0)) .misaligned a

/-- The same for memory that must be the core's own (R184). -/
def Dev.ownAccess (n a size align : Nat) : Chk Unit :=
  if !inCore n a then haltWith .addressRange a
  else if !inCore n (a + size - 1) then haltWith .addressRange (coreAddr n coreSize)
  else require (decide (a % align = 0)) .misaligned a

/-- The bytes of an access; one that includes an uncorrectable word fails as a whole (R186). -/
def Dev.fetchBytes (d : Dev) (n a size : Nat) : Chk (List Byte) :=
  match d.poisoned a size with
  | some x => haltWith .eccUncorrectable x
  | none => .ok (d.bytes (agentCore n) a size)

/-! ### Loads and the drains that wait (R49, R112) -/

/-- An address operand plus a signed offset, modulo 2^48 (R144). -/
def addrPlus (a : Addr) (off : Int) : Nat := (a + BitVec.ofInt 48 off).toNat

/-- Bytes of an element in memory; INT4 elements are written two to a byte. -/
def Fmt.bytes (f : Fmt) : Nat := if f.width ≤ 8 then 1 else f.width / 8

/-- Bytes that a column's values take. -/
def valueBytes (f : Fmt) (n : Nat) : Nat := if f = .int4 then n / 2 else n * f.bytes

/-- Columns that a drain takes of its arrays, as ranks 64 × r + column (R174). -/
def DrainJob.columns (p : DrainJob) : List Nat :=
  (List.range p.sel.length).flatMap (fun r => (List.range p.x.ncol).map (fun k => 64 * r + k))

/-- The byte ranges that a drain writes: values, block shifts, argmax records (R174). -/
def DrainJob.ranges (p : DrainJob) (n : Nat) : List (Nat × Nat) :=
  p.columns.flatMap (fun k =>
    (if p.x.noval then [] else
      [(addrPlus (BitVec.ofNat 48 p.ao) ((k * p.x.pstride : Nat) : Int), valueBytes p.x.ofmt p.n)]) ++
    (if p.x.bmode = 0 then [] else [(coreAddr n (p.x.shiftOff + k * (p.n / blockSize p.x.ob)), p.n / blockSize p.x.ob)]) ++
    (if p.last then [(coreAddr n (p.x.argOff + 8 * k), 8)] else []))

/-- The device with the bytes that the core's waiting drains are to write made unreadable: an access that fails there, and not
on the device as it stands, depends on one of them. -/
def Dev.unwritten (d : Dev) (l : List (Nat × Nat)) : Dev :=
  { d with poison := (l.filter (fun r => decide (0 < r.2))).flatMap (fun r =>
      let u := eccSize r.1
      (List.range ((r.1 + r.2 - 1) / u - r.1 / u + 1)).map (fun k => (r.1 / u + k) * u)) ++ d.poison }

/-- Memory that the waiting drains of a core are to write. -/
def Core.drainRanges (c : Core) (n : Nat) : List (Nat × Nat) := c.drains.flatMap (fun p => p.ranges n)

/-- What an access answers depends on bytes that a drain of an earlier bundle is still to write: it waits (R49, R112). -/
def Dev.afterDrain {α : Type} (d : Dev) (n : Nat) (f : Dev → Chk α) : Bool :=
  let l := (d.core n).drainRanges n
  if l = [] then false
  else
    let ecc (x : Chk α) : Bool :=
      match x with
      | .error (.eccUncorrectable, _) => true
      | _ => false
    ecc (f (d.unwritten l)) && !ecc (f d)

/-- A load operation: its checks give the LPDDR6 bytes it is charged and its effect, which takes place when the regulator has
passed every request of it (R202). -/
def Dev.memOp (d : Dev) (c : At) (k : Nat) (f : Dev → Nat → View → Chk (Nat × (Dev → Dev))) : Dev :=
  d.slot c k (fun d n v =>
    if d.afterDrain n (fun d => f d n v) then .wait d
    else match f d n v with
    | .error e => d.memHalt n e
    | .ok (bytes, g) =>
      let r := d.meter n k bytes
      if r.2 then .ok (g r.1) else .wait r.1)

/-! ### LDS, VLD, VGTH (R164) -/

def ldBytes : LdSize → Nat
  | .u8 | .i8 => 1
  | .u16 | .i16 => 2
  | .u32 | .i32 => 4
  | .d64 => 8

def ldExtend (z : LdSize) (x : Nat) : Dword :=
  match z with
  | .i8 => BitVec.ofInt 64 (sgn 8 x)
  | .i16 => BitVec.ofInt 64 (sgn 16 x)
  | .i32 => BitVec.ofInt 64 (sgn 32 x)
  | _ => BitVec.ofNat 64 x

def execLds (c : At) (sd : Fin 32) (aa : Fin 16) (size : LdSize) (imm : BitVec 22) (s : State) :=
  slotAct (.lds c sd aa size imm) s (fun d =>
  d.memOp c slotLoad (fun d n v => do
    let a := addrPlus (v.ra aa) imm.toInt
    d.access a (ldBytes size) (ldBytes size)
    let l ← d.fetchBytes n a (ldBytes size)
    pure (d.charged a (ldBytes size), fun d => (d.countRd a (ldBytes size)).ws n sd (ldExtend size (leNat l)))))

def execVld (c : At) (vd : Fin 32) (aa : Fin 16) (imm : BitVec 25) (s : State) := slotAct (.vld c vd aa imm) s (fun d =>
  d.memOp c slotLoad (fun d n v => do
    let a := addrPlus (v.ra aa) imm.toInt
    d.access a 512 64
    let l ← d.fetchBytes n a 512
    pure (d.charged a 512, fun d => (d.countRd a 512).wv n vd (BitVec.ofNat 4096 (leNat l)))))

/-- Addresses aA + 4 × V[i], each in the core's own memory. -/
def ownWords (n : Nat) (base : Addr) (idx : VReg) : Chk (List Nat) :=
  (elems 32 128 idx).mapM (fun e => do
    let a := addrPlus base (4 * sgn 32 e)
    Dev.ownAccess n a 4 4
    pure a)

def execVgth (c : At) (vd : Fin 32) (aa : Fin 16) (vb : Fin 32) (s : State) := slotAct (.vgth c vd aa vb) s (fun d =>
  d.memOp c slotLoad (fun d n v => do
    let idx ← v.needV vb
    let as ← ownWords n (v.ra aa) idx
    let ws ← as.mapM (fun a => d.fetchBytes n a 4)
    pure (0, fun d => d.wv n vd (packElems 32 (ws.map leNat)))))

/-! ### Rows of a shadow set (R48, R165) -/

/-- Formats of stationary rows (Table 5.12 FMT). -/
def Fmt.gatherable (f : Fmt) : Bool :=
  match f with
  | .int4 | .int8 | .uint8 | .int16 | .fp8e4m3 | .fp8e5m2 | .bf16 | .fp16 => true
  | _ => false

/-- Four-cell formats: 64 logical rows of 32 columns (R43). -/
def Fmt.fourCell (f : Fmt) : Bool := decide (f.width = 16)

/-- Activation block sizes of the code BA (R165). -/
def baSize (ba : Fin 4) : Nat := if ba = 0 then 0 else 16 * pow2 (ba.val - 1)

/-- A row write of format `f` and block size `b` into a shadow set: the first since the set became the shadow replaces its
tag and clears its marks and block shifts; a later one must agree (R48). -/
def CellSet.begin (s : CellSet) (f : Fmt) (b : Nat) : Option CellSet :=
  if s.fresh then
    some { s with tag := some (f, b), fresh := false, marked := 0, disabled := [], side := [], blk := [] }
  else if s.tag = some (f, b) then some s
  else none

/-- Check and write one row of KIND `k` into a shadow set. A marked main row holds zeros (R55, R85). -/
def CellSet.putRow (s : CellSet) (k : RowKind) (row : Nat) (f : Fmt) (b : Nat) (img : Nat) : Chk CellSet :=
  match s.begin f b with
  | none => haltWith .arrayState
  | some s =>
    match k with
    | .main => do
      require (decide (row < if f.fourCell then 64 else 128)) .arrayState
      pure { s with rows := Tbl.set s.rows row { fmt := f, bits := if s.disabled.contains row then 0 else BitVec.ofNat 512 img } }
    | .side => do
      require (decide (row < 128)) .arrayState
      require (decide (s.marked < 8)) .arrayState
      require (s.disabled.all (fun r => decide (r < row))) .arrayState
      pure { s with side := Tbl.set s.side s.marked (BitVec.ofNat 1024 img), marked := s.marked + 1,
                    disabled := s.disabled ++ [row], rows := Tbl.set s.rows row { fmt := f, bits := 0 } }
    | .shifts => do
      require (decide (b ≠ 0 ∧ row < 128 / b)) .arrayState
      pure { s with blk := Tbl.set s.blk row (BitVec.ofNat 512 img) }

/-- Row images of each selected array, in ascending array order: the shadow sets with the rows written. -/
def Core.putRows (c : Core) : List (Nat × Nat) → RowKind → Nat → Fmt → Nat → Chk Core
  | [], _, _, _, _ => .ok c
  | (arr, img) :: t, k, row, f, b =>
    match (c.shadowSet arr).putRow k row f b img with
    | .error e => .error e
    | .ok s => (c.setShadow arr s).putRows t k row f b

/-- A row write waits: for an MSWAP of an earlier bundle that exchanges sets of these arrays and has not issued yet (R47,
R112), and where an array is hosted (R329) until no issued vector uses its pair. DESIGN CHOICE: an MSWAP of the row write's own
bundle comes after it, so that the row goes into the set that is the shadow before the bundle (R112: a slot sees nothing of its
own bundle; the spec names no order of the two). -/
def Core.swapQueued (c : Core) (m : BitVec 4) : Bool :=
  let pairs : BitVec 4 := c.hostedArrays ||| ((c.hostedArrays &&& 5#4) <<< 1) ||| ((c.hostedArrays &&& 10#4) >>> 1)
  c.mq.any (fun e =>
    match e.op with
    | .mswap a => decide (a &&& m ≠ 0 ∧ e.ord < c.ord)
    | _ => false) ||
  c.stream.any (fun st => decide (pairs &&& m ≠ 0 ∧ pairs &&& st.amask ≠ 0))

/-- The index range of a KIND (Table 5.11). -/
def rowInRange (k : RowKind) (f : Fmt) (b row : Nat) : Bool :=
  match k with
  | .main => decide (row < if f.fourCell then 64 else 128)
  | .side => decide (row < 128)
  | .shifts => decide (b ≠ 0 ∧ row < 128 / b)

def rowBytesOf (k : RowKind) (f : Fmt) : Nat :=
  match k with
  | .main => if f = .int4 then 32 else 64
  | .side => 128
  | .shifts => 64

/-- Activation formats and block shifts that a shadow load accepts (R71, R78). -/
def rowFormat (f : Fmt) (ba : Fin 4) : Chk Unit := require (f.gatherable && (ba = 0 || blockable f)) .formatMismatch

/-- SROW: loads a row into the shadow set of every selected array. -/
def execSrow (c : At) (amask : BitVec 4) (aa : Fin 16) (sr : Fin 32) (row : Fin 128) (fmt : Fmt) (kind : RowKind) (ba : Fin 4)
    (s : State) := slotAct (.srow c amask aa sr row fmt kind ba) s (fun d =>
  if (d.core c.core.val).swapQueued amask then d
  else d.memOp c slotLoad (fun d n v => do
    rowFormat fmt ba
    let per := rowBytesOf kind fmt
    let sel := arrays amask
    let a := (v.ra aa).toNat
    let total := per * sel.length
    d.access a total 1
    let l ← d.fetchBytes n a total
    let imgs := ((List.range sel.length).zip sel).map (fun e => (e.2, leNat ((l.drop (per * e.1)).take per)))
    require (rowInRange kind fmt (baSize ba) (row.val + low32 (v.rs sr))) .arrayState
    let core ← (d.core n).putRows imgs kind (row.val + low32 (v.rs sr)) fmt (baSize ba)
    pure (d.charged a total, fun d => (d.countRd a total).updCore n (fun c => { c with sets := core.sets }))))

/-! ### WGATHER (R83 to R86, R167 to R169, R210 to R218) -/

/-- The fields of a gather descriptor (Table 5.12). -/
structure Gather where
  inOff : Nat
  fmt : Fmt
  padmode : Nat
  ba : Fin 4
  inH : Nat
  inW : Nat
  c : Nat
  c0 : Nat
  pix : Nat
  rowStride : Nat
  kh : Nat
  kw : Nat
  sy : Nat
  sx : Nat
  dy : Nat
  dx : Nat
  padT : Nat
  padB : Nat
  padL : Nat
  padR : Nat
  padval : Nat
  ktile : Nat
  p0 : Nat
  outlOff : Nat
  outlEn : Bool
  deriving DecidableEq, Repr

/-- The reserved fields of Table 5.12 are 0. -/
def gatherClean (l : List Byte) : Bool :=
  let w (i : Nat) := wordAt l (4 * i)
  decide (bits (w 3) 24 8 = 0 ∧ bits (w 4) 24 8 = 0 ∧ bits (w 7) 16 16 = 0 ∧ bits (w 8) 16 16 = 0 ∧
    bits (w 10) 25 7 = 0 ∧ w 11 = 0 ∧ w 12 = 0 ∧ w 13 = 0 ∧ w 14 = 0 ∧ w 15 = 0)

/-- Table 5.12. -/
def gatherFields (l : List Byte) : Gather :=
  let w (i : Nat) := wordAt l (4 * i)
  { inOff := bits (w 0) 0 24, fmt := Fmt.ofCode (bits (w 0) 24 4), padmode := bits (w 0) 28 2,
    ba := ⟨bits (w 0) 30 2 % 4, Nat.mod_lt _ (by decide)⟩,
    inH := bits (w 1) 0 16, inW := bits (w 1) 16 16, c := bits (w 2) 0 16, c0 := bits (w 2) 16 16,
    pix := bits (w 3) 0 24, rowStride := bits (w 4) 0 24, kh := bits (w 5) 0 8, kw := bits (w 5) 8 8,
    sy := bits (w 5) 16 4, sx := bits (w 5) 20 4, dy := bits (w 5) 24 4, dx := bits (w 5) 28 4,
    padT := bits (w 6) 0 8, padB := bits (w 6) 8 8, padL := bits (w 6) 16 8, padR := bits (w 6) 24 8,
    padval := bits (w 7) 0 16, ktile := bits (w 8) 0 16, p0 := w 9, outlOff := bits (w 10) 0 24,
    outlEn := decide (bits (w 10) 24 1 = 1) }

/-- The fields hold defined values (R167, R214). -/
def Gather.valid (g : Gather) : Bool :=
  decide (g.padmode ≠ 3 ∧ g.kh ≠ 0 ∧ g.kw ≠ 0 ∧ g.sy ≠ 0 ∧ g.sx ≠ 0 ∧ g.dy ≠ 0 ∧ g.dx ≠ 0 ∧ g.inH ≠ 0 ∧
    g.inW ≠ 0 ∧ g.c ≠ 0 ∧ g.padval < pow2 g.fmt.width)

/-- A gather descriptor with its field checks in the order of R146; `list`: the outlier list's header breaks RESERVED_FIELD. -/
def readGather (l : List Byte) (desc : Nat) (list : Bool := false) : Chk Gather := do
  require (gatherClean l && !list) .reservedField
  let g := gatherFields l
  rowFormat g.fmt g.ba
  require g.valid .descField desc
  pure g

/-- Output size along one axis (R211): floor((In + pads − dil × (K − 1) − 1) / S) + 1. -/
def outSize (inp padLo padHi dil k s : Nat) : Int :=
  ((inp : Int) + padLo + padHi - dil * ((k : Int) - 1) - 1) / (s : Int) + 1

def Gather.oh (g : Gather) : Int := outSize g.inH g.padT g.padB g.dy g.kh g.sy
def Gather.ow (g : Gather) : Int := outSize g.inW g.padL g.padR g.dx g.kw g.sx

/-- Where element (y, x, ch) of the input lies: core-memory byte offset. -/
def Gather.elemOff (g : Gather) (y x ch : Nat) : Nat :=
  g.inOff + y * g.rowStride + x * g.pix + (if g.fmt = .int4 then ch / 2 else ch * (g.fmt.width / 8))

/-- Reads of a gather go through 64-byte accesses (R215). -/
def Dev.gatherRead (d : Dev) (n off size : Nat) : Chk Nat :=
  if coreSize < off + size then haltWith .addressRange (coreAddr n off)
  else
    let a := coreAddr n off
    match d.poisoned (a / 64 * 64) ((a + size - 1) / 64 * 64 + 64 - a / 64 * 64) with
    | some x => haltWith .eccUncorrectable x
    | none => .ok (leNat (d.bytes (agentCore n) a size))

/-- The element (y, x, ch) of the input (R168). -/
def Gather.input (g : Gather) (d : Dev) (n y x ch : Nat) : Chk Nat := do
  let size := if g.fmt = .int4 then 1 else g.fmt.width / 8
  let v ← d.gatherRead n (g.elemOff y x ch) size
  pure (if g.fmt = .int4 then bits v (4 * (ch % 2)) 4 else v)

/-- Clamp an index to 0 … hi. -/
def clampIdx (i : Int) (hi : Nat) : Nat := if i < 0 then 0 else Nat.min i.toNat hi

/-- What stands at reduction index `i` and position `p`: a code of its own, or an element of the input (R168, R214). -/
inductive Tap where
  | code (x : Nat)
  | input (y x ch : Nat)
  deriving DecidableEq, Repr

def Gather.tap (g : Gather) (ow nPos i p : Nat) : Tap :=
  if g.c * g.kh * g.kw ≤ i ∨ nPos ≤ p then .code 0
  else
    let ch := g.c0 + i % g.c
    let kx := i / g.c % g.kw
    let ky := i / (g.c * g.kw)
    let iy : Int := ((p / ow * g.sy + ky * g.dy : Nat) : Int) - g.padT
    let ix : Int := ((p % ow * g.sx + kx * g.dx : Nat) : Int) - g.padL
    if 0 ≤ iy ∧ iy < g.inH ∧ 0 ≤ ix ∧ ix < g.inW then .input iy.toNat ix.toNat ch
    else if g.padmode = 0 then .code 0
    else if g.padmode = 1 then .input (clampIdx iy (g.inH - 1)) (clampIdx ix (g.inW - 1)) ch
    else .code g.padval

/-- The stationary code of reduction index `i` at position `p`. -/
def Gather.element (g : Gather) (d : Dev) (n ow nPos i p : Nat) : Chk Nat :=
  match g.tap ow nPos i p with
  | .code x => .ok x
  | .input y x ch => g.input d n y x ch

/-- The bytes of an element lie in the core's own memory (R168). -/
def Gather.elementAddr (g : Gather) (n ow nPos i p : Nat) : Chk Unit :=
  match g.tap ow nPos i p with
  | .code _ => .ok ()
  | .input y x ch =>
    let off := g.elemOff y x ch
    require (decide (off + (if g.fmt = .int4 then 1 else g.fmt.width / 8) ≤ coreSize)) .addressRange (coreAddr n off)

/-! #### The outlier list (R83 to R86) -/

/-- The header of an outlier list: COUNT, SIDE_OFFSET, SIDE_STRIDE, and whether a reserved field is not 0 (Table 3.4). -/
structure OutHead where
  cnt : Nat
  so : Nat
  stride : Nat
  stray : Bool
  deriving DecidableEq, Repr

def outHead (h : List Byte) : OutHead :=
  let w (i : Nat) := wordAt h (4 * i)
  { cnt := bits (w 0) 0 16, so := bits (w 1) 0 24, stride := bits (w 2) 0 24,
    stray := decide (bits (w 0) 16 16 ≠ 0 ∨ bits (w 1) 24 8 ≠ 0 ∨ bits (w 2) 24 8 ≠ 0 ∨ w 3 ≠ 0) }

/-- The header as it stands in memory, and the list's indices. -/
def Dev.outHead (d : Dev) (n off : Nat) : OutHead := Machine.outHead (d.bytes (agentCore n) (coreAddr n off) 16)
def Dev.outIdx (d : Dev) (n off cnt : Nat) : List Nat :=
  let raw := d.bytes (agentCore n) (coreAddr n (off + 16)) (2 * cnt)
  (List.range cnt).map (fun i => leNat ((raw.drop (2 * i)).take 2))

/-- The header can be read and a reserved field of it is not 0. -/
def Dev.outStray (d : Dev) (n off : Nat) : Bool :=
  decide (off + 16 ≤ coreSize) && (d.poisoned (coreAddr n off) 16).isNone && (d.outHead n off).stray

/-- The address checks of an outlier list (R84). DESIGN CHOICE: where several are broken AUX holds the address of the first of
them: the list's end, the list, SIDE_OFFSET, SIDE_STRIDE (the spec gives them no order). -/
def Dev.outAddr (d : Dev) (n off : Nat) : Chk Unit := do
  require (decide (off + 16 ≤ coreSize)) .addressRange (coreAddr n coreSize)
  let h := d.outHead n off
  require (decide (off + 16 + 2 * Nat.min h.cnt 256 ≤ coreSize)) .addressRange (coreAddr n coreSize)
  require (decide (off % 16 = 0)) .misaligned (coreAddr n off)
  require (decide (h.so % 64 = 0)) .misaligned (coreAddr n h.so)
  require (decide (h.stride % 64 = 0)) .misaligned (coreAddr n (h.so + h.stride))

/-- Its marked rows in tile `i0 … i0 + span - 1`, as (list index, row). -/
def marksOf (idx : List Nat) (i0 span : Nat) : List (Nat × Nat) :=
  (((List.range idx.length).zip idx).filter (fun e => decide (i0 ≤ e.2 ∧ e.2 < i0 + span))).map (fun e => (e.1, e.2 - i0))

/-- The other checks of an outlier list (R84), its side offset, side stride and marked rows. -/
def Dev.outliers (d : Dev) (n off i0 span : Nat) : Chk (Nat × Nat × List (Nat × Nat)) := do
  let h ← (d.fetchBytes n (coreAddr n off) 16).map Machine.outHead
  require (decide (h.cnt ≤ 256)) .outlierLimit
  let _ ← d.fetchBytes n (coreAddr n (off + 16)) (2 * h.cnt)
  let idx := d.outIdx n off h.cnt
  require ((idx.zip (idx.drop 1)).all (fun e => decide (e.1 < e.2))) .outlierLimit
  require (idx.all (fun x => decide ((idx.filter (fun y => y / span = x / span)).length ≤ 8))) .outlierLimit
  pure (h.so, h.stride, marksOf idx i0 span)

/-- Row k of a gathered tile for the array of rank r: one code per column. -/
def Gather.tileRow (g : Gather) (d : Dev) (n ow nPos i0 pbase cols r k : Nat) : Chk (List Nat) :=
  (List.range cols).mapM (fun col => g.element d n ow nPos (i0 + k) (pbase + cols * r + col))

/-- A side row: the BF16 values of one marked index at the array's positions (R86); +0.0 beyond the output. -/
def Dev.sideRow (d : Dev) (n so stride li nPos pbase cols r : Nat) : Chk (List Nat) :=
  (List.range cols).mapM (fun col =>
    let p := pbase + cols * r + col
    if nPos ≤ p then .ok 0 else d.gatherRead n (so + stride * li + 2 * p) 2)

/-- The address checks of every element and side value that a gather reads, before any other check of what it reads (R146,
R215). -/
def Gather.addresses (g : Gather) (d : Dev) (n ow nPos i0 pbase ranks : Nat) : Chk Unit := do
  let rows := if g.fmt.fourCell then 64 else 128
  let cols := if g.fmt.fourCell then 32 else 64
  if g.outlEn then d.outAddr n g.outlOff
  let h := d.outHead n g.outlOff
  let marks := if g.outlEn then marksOf (d.outIdx n g.outlOff (Nat.min h.cnt 256)) i0 rows else []
  (List.range ranks).forM (fun r => do
    (List.range rows).forM (fun k =>
      if marks.any (fun m => m.2 = k) then pure ()
      else (List.range cols).forM (fun col => g.elementAddr n ow nPos (i0 + k) (pbase + cols * r + col)))
    marks.forM (fun m => (List.range cols).forM (fun col =>
      let p := pbase + cols * r + col
      let off := h.so + h.stride * m.1 + 2 * p
      require (decide (nPos ≤ p ∨ off + 2 ≤ coreSize)) .addressRange (coreAddr n off))))

/-- The tile of one array: its rows, then its marked rows. -/
def Gather.fill (g : Gather) (d : Dev) (n ow nPos i0 pbase r : Nat) (so stride : Nat) (marks : List (Nat × Nat))
    (s : CellSet) : Chk CellSet := do
  let rows := if g.fmt.fourCell then 64 else 128
  let cols := if g.fmt.fourCell then 32 else 64
  let b := baSize g.ba
  let s ← (List.range rows).foldlM (fun s k => do
    let l ← if marks.any (fun m => m.2 = k) then pure (List.replicate cols 0)
      else g.tileRow d n ow nPos i0 pbase cols r k
    s.putRow .main k g.fmt b (l.foldr (fun x acc => x % pow2 g.fmt.width + pow2 g.fmt.width * acc) 0)) s
  marks.foldlM (fun s m => do
    let l ← d.sideRow n so stride m.1 nPos pbase cols r
    s.putRow .side m.2 g.fmt b (l.foldr (fun x acc => x % 65536 + 65536 * acc) 0)) s

/-- The shadow sets of the selected arrays after a gather. -/
def Gather.fillAll (g : Gather) (d : Dev) (n ow nPos i0 pbase so stride : Nat) (marks : List (Nat × Nat)) :
    List (Nat × Nat) → Core → Chk Core
  | [], c => .ok c
  | (r, arr) :: t, c => do
    let s ← g.fill d n ow nPos i0 pbase r so stride marks (c.shadowSet arr)
    g.fillAll d n ow nPos i0 pbase so stride marks t (c.setShadow arr s)

/-- WGATHER: an empty output writes nothing and sets EMPTY_OUTPUT (R212); a gather of no array is a size probe (R218). -/
def execWgather (c : At) (amask : BitVec 4) (aa : Fin 16) (sp st : Fin 32) (s : State) :=
  slotAct (.wgather c amask aa sp st) s (fun d =>
  if (d.core c.core.val).swapQueued amask then d
  else d.memOp c slotLoad (fun d n v => do
    let desc := (v.ra aa).toNat
    let l ← d.descriptor n desc 64
    let f := gatherFields l
    let g ← readGather l desc (decide (amask ≠ 0) && f.outlEn && !(f.valid && decide (f.oh ≤ 0 ∨ f.ow ≤ 0)) &&
      d.outStray n f.outlOff)
    if g.oh ≤ 0 ∨ g.ow ≤ 0 then pure (0, fun d => d.setSticky n (d.core n).ord 1)
    else if amask = 0 then pure (0, fun d => d)
    else
      let rows := if g.fmt.fourCell then 64 else 128
      let i0 := rows * (g.ktile + low32 (v.rs st))
      let pbase := g.p0 + low32 (v.rs sp)
      let sel := arrays amask
      g.addresses d n g.ow.toNat (g.oh.toNat * g.ow.toNat) i0 pbase sel.length
      let ol ← if g.outlEn then d.outliers n g.outlOff i0 rows else pure (0, 0, [])
      let core ← g.fillAll d n g.ow.toNat (g.oh.toNat * g.ow.toNat) i0 pbase ol.1 ol.2.1 ol.2.2
        ((List.range sel.length).zip sel) (d.core n)
      pure (0, fun d => d.updCore n (fun c => { c with sets := core.sets }))))

/-! ### TLD (R171) -/

/-- TLD: loads a table buffer (Table 5.13). -/
def execTld (c : At) (tb : Fin 4) (aa : Fin 16) (s : State) := slotAct (.tld c tb aa) s (fun d =>
  d.memOp c slotLoad (fun d n v => do
    let a := (v.ra aa).toNat
    d.access a 1040 16
    let l ← d.fetchBytes n a 1040
    let w1 := wordAt l 4
    require (decide (bits w1 8 24 = 0 ∧ wordAt l 8 = 0 ∧ wordAt l 12 = 0 ∧ bits w1 0 8 ≠ 128)) .reservedField
    let t : TabBuf := { x0 := BitVec.ofNat 32 (wordAt l 0), ls := sgn 8 w1,
                        t := (List.range 256).map (fun i => BitVec.ofNat 32 (wordAt l (16 + 4 * i))) }
    pure (d.charged a 1040, fun d => (d.countRd a 1040).updCore n (fun c => { c with tb := Tbl.set c.tb tb.val t }))))

/-! ### Stores (R172) -/

/-- Byte ranges of the core's own memory that a queued MSTREAM is to read. -/
def Dev.matrixReads (d : Dev) (n : Nat) (e : MEntry) : List (Nat × Nat) :=
  match e.op with
  | .mstream _ _ _ feed _ v desc =>
    let l := d.bytes (agentCore n) desc.toNat 16
    let wf := Fmt.ofCode (bits (wordAt l 0) 0 4)
    (desc.toNat, 16) :: (coreAddr n (bits (wordAt l 12) 0 24), 2 * v) ::
      (if feed then [] else
        [(coreAddr n (bits (wordAt l 4) 0 24), v * mainBytes wf), (coreAddr n (bits (wordAt l 8) 0 24), 64 * v)])
  | _ => []

/-- Two byte ranges overlap. -/
def overlaps (a la b lb : Nat) : Bool := decide (0 < la ∧ 0 < lb ∧ a < b + lb ∧ b < a + la)

/-- Some range of one list overlaps one of another. -/
def meetRanges (x y : List (Nat × Nat)) : Bool := x.any (fun r => y.any (fun w => overlaps r.1 r.2 w.1 w.2))

/-- What the streams of bundles up to number `ord` are still to read of the core's memory. -/
def Dev.streamReads (d : Dev) (n ord : Nat) : List (Nat × Nat) :=
  let c := d.core n
  (match c.stream with
   | some st => if st.ord ≤ ord then [(coreAddr n st.jexp, 2 * st.v)] else []
   | none => []) ++
  (c.mq.filter (fun e => decide (e.ord ≤ ord))).flatMap (d.matrixReads n)

/-- Feed queue sizes (R170). -/
def feedMainSize : Nat := 65536
def feedSideSize : Nat := 16384

/-- A WFILL has read its source and waits for room in the feed queue. -/
def Core.filling (c : Core) : Bool :=
  c.feedSrc.any (fun x =>
    match x with
    | .wfill _ _ => true
    | .list _ => false)

/-- The load of the bundle in issue is still to read its memory. -/
def Core.loadPending (c : Core) : Bool :=
  !c.filling &&
  (match c.cur with
   | some b => !bit b.issued.toNat slotLoad
   | none => false)

/-- A store waits for its bundle's load, for what the streams of its own and earlier bundles are still to read there, and for
the drains of earlier bundles that write there (R112). -/
def Dev.storeHeld (d : Dev) (n : Nat) (l : List (Nat × Nat)) : Bool :=
  let c := d.core n
  c.loadPending || meetRanges (d.streamReads n c.ord) l || meetRanges (c.drainRanges n) l

/-- One write of a store operation: byte strings at addresses that do not overlap. -/
abbrev Write := List (Nat × List Byte)

/-- Byte ranges of a write, and how many bytes it has. -/
def Write.ranges (w : Write) : List (Nat × Nat) := w.map (fun e => (e.1, e.2.length))
def Write.size (w : Write) : Nat := (w.map (fun e => e.2.length)).foldl (· + ·) 0

/-- Bytes charged for a write: one request (R202). -/
def Dev.chargedWrite (d : Dev) (w : Write) : Nat :=
  match w with
  | [] => 0
  | e :: _ => d.charged e.1 w.size

/-- A byte that a write covers. -/
def Write.covers (w : Write) (a : Nat) : Bool := w.any (fun e => decide (e.1 ≤ a ∧ a < e.1 + e.2.length))

/-- A write of several byte strings: a unit or an ECC word counts as whole where they cover it together (R186, R189). -/
def Dev.storeParts (d : Dev) (ag : Agent) (w : Write) : Dev :=
  let whole (u z : Nat) : Bool := (List.range z).all (fun i => w.covers (u + i))
  let touched (u z : Nat) : Bool := w.any (fun e => overlaps e.1 e.2.length u z)
  let hit := d.poison.filter (fun u => touched u (eccSize u))
  let d := (hit.filter (fun u => !whole u (eccSize u))).foldl
    (fun d u => d.eccEvent (if ag < 16 then d.jobOf (ag % 8) else none) (addrUnit u) u) d
  let d := { d with poison := d.poison.filter (fun u => !whole u (eccSize u)) }
  let units := (w.filter (fun e => isLp d.cap48 e.1 && !e.2.isEmpty)).foldl (fun l e =>
    (List.range ((e.1 + e.2.length - 1) / 32 - e.1 / 32 + 1)).foldl (fun l k => insertNat ((e.1 / 32 + k) * 32) l) l) []
  let part := units.filter (fun u => !whole u 32)
  let d := if units = [] then d else d.add64 Reg.MC_WR_BYTES_LO Reg.MC_WR_BYTES_HI (32 * units.length)
  let d := if part = [] then d else d.add64 Reg.MC_RD_BYTES_LO Reg.MC_RD_BYTES_HI (32 * part.length)
  w.foldl (fun d e => d.storeList ag e.1 e.2) d

/-- A write of a core. One byte string is written as such. -/
def Dev.putWrite (d : Dev) (n : Nat) (w : Write) : Dev :=
  (match w with
   | [e] => d.store (agentCore n) e.1 e.2
   | _ => d.storeParts (agentCore n) w).noteOuts n w.ranges

/-- A store operation: its checks give its writes, in order. -/
def Dev.storeOp (d : Dev) (c : At) (f : Dev → Nat → View → Chk (List Write)) : Dev :=
  d.slot c slotStore (fun d n v =>
    if d.afterDrain n (fun d => f d n v) then .wait d
    else match f d n v with
    | .error e => d.memHalt n e
    | .ok l =>
      if d.storeHeld n (l.flatMap Write.ranges) then .wait d
      else
        let r := d.meter n slotStore ((l.map d.chargedWrite).foldl (· + ·) 0)
        if r.2 then .ok (l.foldl (fun d w => d.putWrite n w) r.1) else .wait r.1)

/-- STS: 2^size bytes of sB. -/
def execSts (c : At) (sb : Fin 32) (aa : Fin 16) (size : Fin 4) (imm : BitVec 23) (s : State) :=
  slotAct (.sts c sb aa size imm) s (fun d =>
  d.storeOp c (fun d _ v => do
    let k := pow2 size.val
    let a := addrPlus (v.ra aa) imm.toInt
    d.access a k k
    pure [[(a, leBytes k (v.rs sb).toNat)]]))

def stwBytes : StW → Nat
  | .w8 => 1
  | .w16 => 2
  | .w32 => 4

/-- The elements of width `k` bytes whose bit in `m` is 1, neighbours joined to one byte string. -/
def storeRuns (a k m : Nat) : Nat → List (List Byte) → Write
  | _, [] => []
  | i, e :: t =>
    if bit m i then
      match storeRuns a k m (i + 1) t with
      | (b, l) :: u => if b = a + k * (i + 1) then (a + k * i, e ++ l) :: u else (a + k * i, e) :: (b, l) :: u
      | [] => [(a + k * i, e)]
    else storeRuns a k m (i + 1) t

/-- VST: the 512 bytes of vB, or with PEN its elements of width W whose bit in P is 1; its address checks come before
REG_UNSET (R146). -/
def execVst (c : At) (vb : Fin 32) (aa : Fin 16) (p : Fin 8) (pen : Bool) (w : StW) (imm : BitVec 19) (s : State) :=
  slotAct (.vst c vb aa p pen w imm) s (fun d =>
    d.storeOp c (fun d _ v => do
      let a := addrPlus (v.ra aa) (64 * imm.toInt)
      d.access a 512 64
      let x ← v.needV vb
      let m ← if pen then (v.needP p).map some else pure none
      let l := leBytes 512 x.toNat
      match m with
      | none => pure [[(a, l)]]
      | some m =>
        let k := stwBytes w
        pure [storeRuns a k m 0 ((List.range (512 / k)).map (fun i => (l.drop (k * i)).take k))]))

/-- VSCT: elements of vB at aA + 4 × VC[i], in ascending i; each is a write of its own. -/
def execVsct (c : At) (vb : Fin 32) (aa : Fin 16) (vc : Fin 32) (s : State) := slotAct (.vsct c vb aa vc) s (fun d =>
  d.storeOp c (fun _ n v => do
    let idx ← v.needV vc
    let as ← ownWords n (v.ra aa) idx
    let x ← v.needV vb
    pure ((as.zip (elems 32 128 x)).map (fun e => [(e.1, leBytes 4 e.2)]))))

end Sys2Proof.Machine
end

