-- ==== Sys2Proof/Machine/Drain.lean ====
section
/-! DEFINITION. The drain path: DRAIN and STATST (R62 to R68, R93 to R102, R173 to R175, R225). -/

namespace Sys2Proof.Machine

/-! ### The descriptor (Table 5.15) -/

/-- Output formats of the drain (R93), and those that argmax accepts without block shifts (R67). -/
def Fmt.drainable : Fmt → Bool
  | .int4 | .int8 | .uint8 | .int16 | .int32 | .fp8e4m3 | .fp8e5m2 | .bf16 | .fp16 | .fp32 => true
  | _ => false

/-- The descriptor's fields with their RESERVED_FIELD checks (R80, R89). -/
def readDrain (l : List Byte) : Chk DrainDesc := do
  let w (i : Nat) := wordAt l (4 * i)
  let so := sgn 8 (bits (w 1) 0 8)
  require (decide (bits (w 0) 17 15 = 0 ∧ bits (w 1) 22 10 = 0 ∧ bits (w 4) 24 8 = 0 ∧ bits (w 5) 24 8 = 0 ∧
    bits (w 6) 24 8 = 0 ∧ bits (w 7) 24 8 = 0 ∧ bits (w 8) 24 8 = 0) &&
    ((List.range 7).all (fun i => decide (w (9 + i) = 0))) &&
    decide (-63 ≤ so ∧ so ≤ 63 ∧ bits (w 0) 4 2 ≠ 3)) .reservedField
  pure { ofmt := Fmt.ofCode (bits (w 0) 0 4), rnd := Rnd.ofCode (bits (w 0) 4 2), novf := decide (bits (w 0) 6 1 = 1),
         act := bits (w 0) 7 2, tb := ⟨bits (w 0) 9 2 % 4, Nat.mod_lt _ (by decide)⟩, bmode := bits (w 0) 11 2,
         ob := bits (w 0) 13 2, arg := decide (bits (w 0) 15 1 = 1), noval := decide (bits (w 0) 16 1 = 1),
         so := so, fix := sgn 8 (bits (w 1) 8 8), ncol := bits (w 1) 16 6 + 1,
         lo := Fmt.fp32.decode (w 2), hi := Fmt.fp32.decode (w 3), biasOff := bits (w 4) 0 24, expOff := bits (w 5) 0 24,
         pstride := bits (w 6) 0 24, shiftOff := bits (w 7) 0 24, argOff := bits (w 8) 0 24 }

/-! ### Stages 1 to 3 (R63 to R65) -/

/-- Bits that a fault inverts in a value of the drain path: after bias, after the shift, after activation, in the code (R318). -/
structure DrainFlips where
  bias  : Nat := 0
  shift : Nat := 0
  act   : Nat := 0
  code  : Nat := 0
  deriving DecidableEq, Repr

/-- A stage's output as a fault leaves it, and the check that fails on it. -/
def stageOut (fp : Bool) (kind : CheckKind) (mask : Nat) (x : Val) : Val × Option CheckKind :=
  if mask = 0 then (x, none)
  else
    let r := Val.flip fp mask x
    let bad := if kind = .duplicate then decide (r.1 ≠ x) else r.2
    (r.1, if bad then some kind else none)

/-- The first of two failed checks. -/
def firstMiss : Option CheckKind → Option CheckKind → Option CheckKind
  | some k, _ => some k
  | none, y => y

/-- The working value of an accumulator word after bias, shift and activation, and the check that fails on the way: the
identities of bias, shift and TABLE, the duplicated comparators of CLAMP (R318). -/
def DrainDesc.stages (x : DrainDesc) (t : Option TabBuf) (fp : Bool) (a bias : Nat) (e : Int) (f : DrainFlips) :
    Val × Option CheckKind :=
  let v1 := stageOut fp .residue f.bias
    (if fp then (fp32 (BitVec.ofNat 32 a)).fadd (fp32 (BitVec.ofNat 32 bias)) else Val.ofInt (sgn 32 a + sgn 32 bias))
  let v2 := stageOut fp .residue f.shift (if fp then (v1.1.scale e).fl else v1.1.scale e)
  let v := v2.1
  let v3 := match x.act, t with
    | 1, _ => stageOut fp .duplicate f.act (if v.isNan then v else if v.lt x.lo then x.lo else if x.hi.lt v then x.hi else v)
    | 2, some t => stageOut true .residue f.act (t.lookup (if fp then v else v.fl))
    | _, _ => (v, none)
  (v3.1, firstMiss v1.2 (firstMiss v2.2 v3.2))

/-- The fault-free working value (R63 to R65). -/
def DrainDesc.work (x : DrainDesc) (t : Option TabBuf) (fp : Bool) (a bias : Nat) (e : Int) : Val := (x.stages t fp a bias e {}).1

/-! ### Block shifts (R95 to R98) -/

/-- s0 of a block before its clamp (R96): the smallest shift at which the largest magnitude, rounded to the target's
precision, fits. -/
def blockS0 (f : FpFmt) (rnd : Rnd) (ws : List Val) : Int :=
  let mx := ws.foldl (fun acc w => if w.isFinite then Val.max acc w.abs else acc) Val.zero
  match mx with
  | .fin _ m e =>
    if m = 0 then 0
    else
      let r := roundMag rnd m 1 e f.mb none
      let n := if r.1 < pow2 (f.mb + 1) then r else (r.1 / 2, r.2 + 1)
      n.2 - f.maxFin.2 + (if n.1 ≤ f.maxFin.1 then 0 else 1)
  | _ => 0

/-- The error of a block at a candidate shift (R97). -/
def blockErr (x : DrainDesc) (ws : List Val) (c : Int) : Val :=
  ws.foldl (fun err w =>
    if w.isFinite then
      let q := ((x.ofmt.decode (convert x.ofmt x.rnd x.novf c w).code).scale c).fl
      let e := q.fsub w.fl
      err.fadd (e.fmul e)
    else err) Val.zero

/-- A candidate's error is no worse than another's: a NaN error is worse than every other, two NaN errors are equal. -/
def errLe (a b : Val) : Bool :=
  if a.isNan then b.isNan else if b.isNan then true else !b.lt a

/-- The shift of a block and the flags that choosing it raises: SHIFT_CLAMP [4] (R95 to R97). An all-NaN block takes −128
(R98). -/
def DrainDesc.blockShift (x : DrainDesc) (ws : List Val) : Int × BitVec 6 :=
  if ws.all (·.isNan) then (-128, 0)
  else if x.bmode = 1 then (x.fix, 0)
  else
    let raw := blockS0 x.ofmt.fp x.rnd ws
    let s0 := if raw < -127 then -127 else if 127 < raw then 127 else raw
    let fl : BitVec 6 := if s0 = raw then 0 else 16
    if x.bmode = 2 then (s0, fl)
    else
      let cs := [s0 - 1, s0, s0 + 1].filter (fun c => decide (-127 ≤ c ∧ c ≤ 127))
      let best := cs.foldl (fun (acc : Option (Int × Val)) c =>
        let e := blockErr x ws c
        match acc with
        | none => some (c, e)
        | some (b, eb) => if errLe e eb then some (c, e) else some (b, eb)) none
      ((best.map (·.1)).getD s0, fl)

/-! ### Stage 4 -/

/-- A converted element: its working value, code, clip, represented value, whether it lies in a block of −128, and the check
that has failed on it. -/
structure Out1 where
  w : Val
  code : Nat
  clip : Bool
  value : Val
  nanBlock : Bool
  flags : BitVec 6
  miss : Option CheckKind := none
  deriving DecidableEq, Repr

/-- Conversion of one working value at a shift (R66, R90, R98). -/
def DrainDesc.conv1 (x : DrainDesc) (s : Int) (w : Val) : Out1 :=
  if x.bmode ≠ 0 ∧ s = -128 then
    { w := w, code := x.ofmt.fp.nanCode, clip := false, value := .nan, nanBlock := true, flags := 9 }
  else
    let r := convert x.ofmt x.rnd x.novf s w
    { w := w, code := r.code, clip := r.clip, value := (x.ofmt.decode r.code).scale s, nanBlock := false, flags := r.flags }

/-- The same where a fault inverts bits of the code: the identity y = code × 2^s + removed amount meets it (R318), and a code
that passes it goes on. -/
def DrainDesc.conv (x : DrainDesc) (s : Int) (e : Val × Nat × Option CheckKind) : Out1 :=
  let o := x.conv1 s e.1
  if e.2.1 % pow2 x.ofmt.width = 0 then { o with miss := e.2.2 }
  else
    let got := flipCode x.ofmt.width e.2.1 o.code
    { o with
      code := got, value := (x.ofmt.decode got).scale s
      miss := firstMiss e.2.2 (if x.ofmt.fails o.code got then some .residue else none) }

/-- Split a list into blocks of `b`. -/
def chunks {α : Type} (b : Nat) : Nat → List α → List (List α)
  | 0, _ => []
  | k + 1, l => l.take b :: chunks b k (l.drop b)

/-- One column's entries, in channel order: shifts of its blocks, converted elements, flags. Each entry is a working value, the
bits that a fault inverts in its code, and the check that has failed on it so far. -/
def DrainDesc.column (x : DrainDesc) (ws : List (Val × Nat × Option CheckKind)) : List Int × List Out1 × BitVec 6 :=
  if x.bmode = 0 then
    let l := ws.map (x.conv x.so)
    ([], l, l.foldl (fun f o => f ||| o.flags) 0)
  else
    let b := blockSize x.ob
    let blocks := (chunks b (ws.length / b) ws).map (fun blk => (x.blockShift (blk.map (·.1)), blk))
    let l := blocks.flatMap (fun e => e.2.map (x.conv e.1.1))
    (blocks.map (·.1.1), l, blocks.foldl (fun f e => f ||| e.1.2) (l.foldl (fun f o => f ||| o.flags) 0))

/-! ### Statistics (R99, R100) -/

/-- Sum of 64 by the tree of R100. -/
def tree64 (l : List Val) : Val := (treeReduce Val.fadd 6 (l ++ List.replicate (64 - l.length) .zero)).headD .zero

/-- What one array adds to a slot for one entry: squared errors, squared values, counts, clips. -/
def StatSlot.addEntry (s : StatSlot) (l : List Out1) : StatSlot × Bool :=
  let live := l.map (fun o => if o.nanBlock || !o.w.isFinite then none else some o)
  let sq := live.map (fun o => o.elim Val.zero (fun o => let e := o.value.fl.fsub o.w.fl; e.fmul e))
  let sv := live.map (fun o => o.elim Val.zero (fun o => let w := o.w.fl; w.fmul w))
  let cnt := (live.filter (·.isSome)).length
  let clips := (l.filter (fun o => !o.nanBlock && !o.w.isNan && (o.clip || !o.w.isFinite))).length
  let c := s.count + cnt
  let k := s.clip + clips
  ({ sse := ((fp32 s.sse).fadd (tree64 sq)).code32, ssv := ((fp32 s.ssv).fadd (tree64 sv)).code32,
     count := sat32 c, clip := sat32 k }, decide (sat32 c ≠ c ∨ sat32 k ≠ k))

/-! ### Argmax (R67) -/

def argKey (arr col : Nat) : Nat := 64 * arr + col

/-- One value meets the running maximum: only a strictly greater one replaces it. -/
def ArgCol.step (s : ArgCol) (o : Out1) : ArgCol :=
  let t := { s with count := s.count + 1 }
  if o.w.isNan then t
  else if !s.have_ || s.max.lt o.value then { t with have_ := true, max := o.value, code := o.code, idx := s.count }
  else t

/-! ### DRAIN (R173, R174) -/

/-- Codes as bytes (R72, R174). -/
def packCodes (f : Fmt) : List Nat → List Byte
  | [] => []
  | [a] => leBytes f.bytes a
  | a :: b :: t =>
    if f = .int4 then BitVec.ofNat 8 (a % 16 + 16 * (b % 16)) :: packCodes f t
    else leBytes f.bytes a ++ leBytes f.bytes b ++ packCodes f t

/-- A stream of an earlier bundle is still to write some of a drain's entries (R49): an issued one those of its vectors that
have not entered, one in the queue any that it may name. -/
def Core.accPending (c : Core) (p : DrainJob) : Bool :=
  let sel : BitVec 4 := BitVec.ofNat 4 (p.sel.foldl (fun m a => m + pow2 a) 0)
  let hit (m : BitVec 4) (e k : Nat) : Bool := decide (m &&& sel ≠ 0) && overlaps p.b p.n e k
  (match c.stream with
   | some s =>
     let lanes := ((laneMode s.afmt s.wfmt).map (·.lanes)).getD 1
     decide (s.ord < p.ord) && hit s.amask (s.base + s.j * lanes) ((s.v - s.j) * lanes)
   | none => false) ||
  c.mq.any (fun q => decide (q.ord < p.ord) &&
    (match q.op with
     | .mstream m _ _ _ e v _ => hit m e (2 * v)
     | .mclr m e k _ => hit m e k
     | .mawr a e _ _ => hit (BitVec.ofNat 4 (pow2 a.val)) e 1
     | _ => false))

/-- A drain of an earlier bundle, or of the same, is still to read entries that a matrix operation writes (R49): arrays, first
entry, count. -/
def Core.drainBlocks (c : Core) (ord : Nat) (m : BitVec 4) (e k : Nat) : Bool :=
  c.drains.any (fun p => decide (p.ord ≤ ord) && p.sel.any (fun a => bit m.toNat a) && overlaps p.b p.n e k)

/-- A table of `len` bytes at a core-memory offset lies in the core's memory. -/
def inTable (n off len : Nat) : Chk Unit := require (decide (off + len ≤ coreSize)) .addressRange (coreAddr n (Nat.max off coreSize))

/-- Entries drained for a column since ARG_FIRST, once the waiting drains have run (R67). -/
def Core.argCount (c : Core) (arr col : Nat) : Nat :=
  c.drains.foldl (fun k p =>
    if p.x.arg && p.sel.contains arr && decide (col < p.x.ncol) then (if p.first then 0 else k) + p.n else k)
    (Tbl.getD c.arg (argKey arr col) {}).count

/-- The checks of a drain in the order of R146. DESIGN CHOICE: COUNT_RANGE comes before DESC_FIELD (R146 puts the two in one step
and gives them no order). A count out of range is reported also where the descriptor cannot be read. -/
def Dev.drainPlan (d : Dev) (c : Nat) (v : View) (amask : BitVec 4) (ent : Fin 1024) (sn : Fin 32) (ad ao : Fin 16)
    (stats first last : Bool) : Chk DrainJob := do
  let desc := (v.ra ad).toNat
  let n := (v.rs sn).toNat
  let l ← match d.descriptor c desc 64 with
    | .ok l => .ok l
    | .error e => if 1 ≤ n ∧ n ≤ 1024 then .error e else haltWith .countRange n
  let x ← readDrain l
  let tabOk := decide (n ≤ 1024 ∧ x.expOff + n ≤ coreSize) && (d.poisoned (coreAddr c x.expOff) n).isNone
  let exps := if tabOk then d.bytes (agentCore c) (coreAddr c x.expOff) n else []
  require (exps.all (fun e => decide (e.toNat ≠ 128))) .reservedField
  require x.ofmt.drainable .formatMismatch
  require (decide (x.bmode = 0) || x.ofmt.isFp8) .formatMismatch
  require (!x.arg || decide (x.bmode = 0 ∧ x.ofmt ≠ .int4)) .formatMismatch
  require (decide (1 ≤ n ∧ n ≤ 1024) && (decide (x.ofmt ≠ .int4) || n % 2 = 0)) .countRange n
  require (decide (x.act ≠ 3 ∧ x.ob ≠ 3) && !x.lo.isNan && !x.hi.isNan && !x.hi.lt x.lo) .descField desc
  let sel := arrays amask
  let cols := if sel = [] then 0 else 64 * (sel.length - 1) + x.ncol
  let bsz := blockSize x.ob
  let fst := x.arg && first
  let lst := x.arg && last
  inTable c x.expOff n
  let exps ← d.fetchBytes c (coreAddr c x.expOff) n
  inTable c x.biasOff (4 * n)
  let bias ← d.fetchBytes c (coreAddr c x.biasOff) (4 * n)
  if x.bmode ≠ 0 ∧ cols ≠ 0 then inTable c x.shiftOff (cols * (n / bsz))
  if lst && cols ≠ 0 then inTable c x.argOff (8 * cols)
  let base := (v.ra ao).toNat
  if !x.noval then
    ((List.range sel.length).flatMap (fun r => (List.range x.ncol).map (fun k => 64 * r + k))).forM (fun k =>
      match d.firstBad (addrPlus (v.ra ao) ((k * x.pstride : Nat) : Int)) (valueBytes x.ofmt n) with
      | some a => haltWith .addressRange a
      | none => pure ())
  require (decide (ent.val + n ≤ 1024)) .arrayState
  require (decide (x.bmode = 0 ∨ n % bsz = 0)) .arrayState
  let tab ← if x.act = 2 then (d.needTb c x.tb).map some else pure none
  if x.arg then
    require (sel.all (fun a => (List.range x.ncol).all (fun k =>
      decide ((if fst then 0 else (d.core c).argCount a k) + n ≤ 65535)))) .arrayState
  pure { x := x, b := ent.val, n := n, sel := sel, ao := base, bias := bias, exps := exps, tab := tab, stats := stats,
         first := fst, last := lst, ord := (d.core c).ord, pos := d.curPos c }

/-- The faults of one value of the drain path. -/
def drainFlips (l : List Flip) (arr ent col : Nat) : DrainFlips :=
  if l = [] then {}
  else
    let a := Fin.ofNat 4 arr
    let e := Fin.ofNat 1024 ent
    let k := Fin.ofNat 64 col
    { bias := flipAt l (.bias a e k), shift := flipAt l (.shift a e k), act := flipAt l (.act a e k), code := flipAt l (.code a e k) }

/-- Stages 1 to 4 of every column of one array: per column its shifts, converted elements and flags. -/
def Dev.drainArray (d : Dev) (c : Nat) (p : DrainJob) (arr : Nat) : List (List Int × List Out1 × BitVec 6) :=
  (List.range p.x.ncol).map (fun col =>
    p.x.column ((List.range p.n).map (fun j =>
      let e := d.accEntry c arr (p.b + j)
      let f := drainFlips (d.core c).flips arr (p.b + j) col
      let r := p.x.stages p.tab e.fp (e.col col) (wordAt p.bias (4 * j)) (sgn 8 (byteAt p.exps j)) f
      (r.1, f.code, r.2))))

/-- The byte strings a drain writes: values (R174), block shifts. -/
def DrainJob.writes (p : DrainJob) (c : Nat) (all : List (Nat × List (List Int × List Out1 × BitVec 6))) :
    List (Nat × List Byte) :=
  ((List.range all.length).zip all).flatMap (fun e =>
    ((List.range e.2.2.length).zip e.2.2).flatMap (fun f =>
      let k : Nat := 64 * e.1 + f.1
      (if p.x.noval then [] else
        [((addrPlus (BitVec.ofNat 48 p.ao) ((k * p.x.pstride : Nat) : Int)), packCodes p.x.ofmt (f.2.2.1.map (·.code)))]) ++
      (if p.x.bmode = 0 then [] else
        [(coreAddr c (p.x.shiftOff + k * (p.n / blockSize p.x.ob)), f.2.1.map (fun s => BitVec.ofInt 8 s))])))

/-- Argmax state of a core after a drain (R67). DESIGN CHOICE: ARG_FIRST clears the columns that the drain takes and no other (the
spec does not say what becomes of the rest). -/
def Dev.argAll (d : Dev) (c : Nat) (p : DrainJob) (all : List (Nat × List (List Int × List Out1 × BitVec 6))) : Dev :=
  if !p.x.arg then d
  else all.foldl (fun d e => ((List.range e.2.length).zip e.2).foldl (fun d f =>
    let k := argKey e.1 f.1
    let s0 : ArgCol := if p.first then {} else Tbl.getD (d.core c).arg k {}
    let s1 := f.2.2.1.foldl (fun s o => s.step o) s0
    d.updCore c (fun x => { x with arg := Tbl.set x.arg k s1 })) d) d

/-- The argmax records of a drain marked ARG_LAST (R67, R174). -/
def Dev.argRecords (d : Dev) (c : Nat) (p : DrainJob) : List (Nat × List Byte) :=
  if !p.last then []
  else ((List.range p.sel.length).zip p.sel).flatMap (fun e => (List.range p.x.ncol).map (fun col =>
    let s := Tbl.getD (d.core c).arg (argKey e.2 col) {}
    let code := if s.have_ then s.code else if p.x.ofmt.isInt then 0 else p.x.ofmt.fp.nanCode
    let idx := if s.have_ then s.idx else 0xFFFF
    (coreAddr c (p.x.argOff + 8 * (64 * e.1 + col)), leBytes 4 (idx % 65536) ++ leBytes 4 code)))

/-- A slot's sum of squared errors as a fault leaves it, and whether its check fails (R318). -/
def StatSlot.flip (x : StatSlot) (mask : Nat) : StatSlot × Bool :=
  let got := flipCode 32 mask x.sse.toNat
  if mask % pow2 32 = 0 then (x, false)
  else ({ x with sse := BitVec.ofNat 32 got }, Fmt.fp32.fp.fails x.sse.toNat got)

/-- The statistics slots after a drain (R100): entries in ascending order, arrays in ascending order; and whether a check of
its sums fails. -/
def Dev.statAll (d : Dev) (c : Nat) (p : DrainJob) (all : List (Nat × List (List Int × List Out1 × BitVec 6))) : Dev × Bool :=
  if !p.stats then (d, false)
  else (List.range p.n).foldl (fun d j => all.foldl (fun d e =>
    let l := e.2.filterMap (fun f => f.2.1[j]?)
    let r := (Tbl.getD (d.1.core c).stats (p.b + j) {}).addEntry l
    let m := r.1.flip (flipAt (d.1.core c).flips (.stat (Fin.ofNat 4 e.1) (Fin.ofNat 1024 (p.b + j))))
    let d1 := d.1.updCore c (fun x => { x with stats := Tbl.set x.stats (p.b + j) m.1 })
    (if r.2 then d1.orFlags c 32 else d1, d.2 || m.2)) d) (d, false)

/-- A place of the drain path that a drain passes through. -/
def siteOfDrain (p : DrainJob) : Site → Bool
  | .bias a e _ => p.sel.contains a.val && decide (p.b ≤ e.val ∧ e.val < p.b + p.n)
  | .shift a e _ => p.sel.contains a.val && decide (p.b ≤ e.val ∧ e.val < p.b + p.n)
  | .act a e _ => p.sel.contains a.val && decide (p.b ≤ e.val ∧ e.val < p.b + p.n)
  | .code a e _ => p.sel.contains a.val && decide (p.b ≤ e.val ∧ e.val < p.b + p.n)
  | .stat a e => p.sel.contains a.val && decide (p.b ≤ e.val ∧ e.val < p.b + p.n)
  | _ => false

/-- What the oldest waiting drain answers. -/
inductive DrainRes where
  | wait (d : Dev)
  | halt (d : Dev)
  | ok (d : Dev)

/-- The slot number under which the regulator holds the drain path. -/
def slotDrainPath : Nat := 5

/-- The entries that a drain reads: array and number. -/
def DrainJob.entries (p : DrainJob) : List (Nat × Nat) := p.sel.flatMap (fun a => (List.range p.n).map (fun j => (a, p.b + j)))

/-- The check that fails first on a drain's values. -/
def drainMiss (all : List (Nat × List (List Int × List Out1 × BitVec 6))) : Option CheckKind :=
  all.foldl (fun m e => e.2.foldl (fun m f => f.2.1.foldl (fun m o => firstMiss m o.miss) m) m) none

/-- A drain leaves its core's list, and the faults of its values have struck. -/
def Core.drainGone (c : Core) (p : DrainJob) : Core := { c.spend (siteOfDrain p) with drains := c.drains.drop 1 }

/-- What a drain whose checks have passed does: values, block shifts, argmax, statistics, flags; its entries are drained. -/
def Dev.drainWrite (d : Dev) (n : Nat) (p : DrainJob) (all : List (Nat × List (List Int × List Out1 × BitVec 6))) : Dev :=
  let d := (p.writes n all).foldl (fun d e => d.putWrite n [e]) d
  let d := d.argAll n p all
  let d := (d.argRecords n p).foldl (fun d e => d.putWrite n [e]) d
  let d := (d.statAll n p all).1
  let d := d.updCore n (fun c => c.drainGone p)
  let d := p.entries.foldl (fun d e => d.closeAcc n e.1 e.2) d
  d.orFlags n (all.foldl (fun f e => e.2.foldl (fun f g => f ||| g.2.2) f) 0)

/-- The oldest waiting drain of a core, once nothing holds it: an entry with an uncorrectable word halts the gang (R186), a
failed check stops it before any value is written (R318), its bytes pass the regulator (R202), and it does its work. -/
def Dev.drainNow (d : Dev) (n : Nat) (p : DrainJob) : DrainRes :=
  let c := d.core n
  if c.accPending p || meetRanges (d.streamReads n p.ord) (p.ranges n) then .wait d
  else
    match p.entries.find? (fun e => c.accBad.contains (accKey e.1 e.2)) with
    | some e => .halt ((d.eccEvent (d.jobOf n) (d.physUnit n e.1) 0).haltGang n .eccUncorrectable slotStore 0 p.pos)
    | none =>
      let all := p.sel.map (fun a => (a, d.drainArray n p a))
      match firstMiss (drainMiss all) (if (d.statAll n p all).2 then some .residue else none) with
      | some k => .halt ((d.updCore n (fun c => c.drainGone p)).detect n 4 k p.pos)
      | none =>
        let r := d.meter n slotDrainPath (((p.writes n all).map (fun e => d.charged e.1 e.2.length)).foldl (· + ·) 0)
        if r.2 then .ok (r.1.drainWrite n p all) else .wait r.1

/-- STATST (R175): it waits for the drains that are still to add to the slots. -/
def execStatst (c : At) (slot : Fin 1024) (sn : Fin 32) (aa : Fin 16) (s : State) :=
  slotAct (.statst c slot sn aa) s (fun d =>
  if (d.core c.core.val).drains.any (·.stats) then d
  else d.storeOp c (fun d n v => do
    let k := (v.rs sn).toNat
    require (decide (1 ≤ k ∧ slot.val + k ≤ 1024)) .countRange k
    let a := (v.ra aa).toNat
    d.access a (16 * k) 16
    pure [[(a, (List.range k).flatMap (fun i =>
      let t := Tbl.getD (d.core n).stats (slot.val + i) {}
      leBytes 4 t.sse.toNat ++ leBytes 4 t.ssv.toNat ++ leBytes 4 t.count ++ leBytes 4 t.clip))]]))

end Sys2Proof.Machine
end

