-- ==== Sys2Proof/Machine/MatrixQueue.lean ====
section
/-! DEFINITION. What waits inside a core and runs on: the matrix queue and the stream that it feeds (R37, R160), the feed queue
(R170), the drains (R49), and the operations that start them. -/

namespace Sys2Proof.Machine

/-! ### The feed queue (R170) -/

/-- WFILL bytes enter the feed queue as it has room, in the order of their bundles (R170); a WFILL that has delivered its
bytes has issued. -/
def Core.deliver (c : Core) : Core :=
  match c.feedSrc with
  | .wfill m s :: t =>
    let km := feedMainSize - c.feedMain.length
    let ks := feedSideSize - c.feedSide.length
    let c := { c with feedMain := c.feedMain ++ m.take km, feedSide := c.feedSide ++ s.take ks }
    if m.length ≤ km ∧ s.length ≤ ks then { c with feedSrc := t }.mark 3
    else { c with feedSrc := .wfill (m.drop km) (s.drop ks) :: t }
  | _ => c

/-- The feed queue takes whatever earlier sources can deliver. -/
def Core.deliverAll : Nat → Core → Core
  | 0, c => c
  | k + 1, c => (c.deliver).deliverAll k

/-- The feed queue of core `n` takes what it can; a WFILL that issues by it restarts the gang's watchdog (R123). -/
def Dev.deliverFeed (d : Dev) (n : Nat) : Dev :=
  let c := d.core n
  let d' := d.updCore n (fun c => c.deliverAll c.feedSrc.length)
  if c.filling && !(d'.core n).filling then d'.issued n else d'

/-! ### What a matrix operation waits for at the head of the queue -/

/-- The bundle in issue holds an SROW or a WGATHER that has not issued (Table 5.10). -/
def Core.rowPending (c : Core) : Bool :=
  match c.cur with
  | some b => !bit b.issued.toNat slotLoad &&
      decide (bits (slotBits b.q.bits slotLoad) 0 6 = 8 ∨ bits (slotBits b.q.bits slotLoad) 0 6 = 9)
  | none => false

/-- The entries that the next vector of a stream writes: the first, and how many. -/
def Stream.nextEntries (st : Stream) : Nat × Nat :=
  let lanes := ((laneMode st.afmt st.wfmt).map (·.lanes)).getD 1
  (st.base + st.j * lanes, lanes)

/-- The next vector of a stream would overwrite an entry that a drain is still to read (R49). -/
def Core.streamBlocked (c : Core) (st : Stream) : Bool := c.drainBlocks st.ord st.amask st.nextEntries.1 st.nextEntries.2

/-- An operation waits at the head of the matrix queue: a write of entries for the drains that are to read them (R49), an
MSTREAM for the drains of earlier bundles that write what it reads, an MSWAP for the row write of its own bundle (R112). -/
def Dev.matrixBlocked (d : Dev) (n : Nat) (e : MEntry) : Bool :=
  let c := d.core n
  match e.op with
  | .mstream .. => meetRanges (d.matrixReads n e) ((c.drains.filter (fun p => decide (p.ord < e.ord))).flatMap (fun p => p.ranges n))
  | .mswap _ => c.cur.isSome && decide (e.ord = c.ord) && c.rowPending
  | .mclr m b k _ => c.drainBlocks e.ord m b k
  | .mard .. => false
  | .mawr a b _ _ => c.drainBlocks e.ord (BitVec.ofNat 4 (pow2 a.val)) b 1

/-! ### Running on -/

/-- A halt found while the queue or the stream runs. -/
def Dev.matrixHalt (d : Dev) (n : Nat) (r : HaltReason) (aux : Nat) (pos : Nat × Word) : Dev :=
  d.haltGang n r slotMatrix aux pos

/-- A halt of an operation at the head of the queue; an uncorrectable word is an event of the unit that holds it. -/
def Dev.issueHalt (d : Dev) (n : Nat) (e : MEntry) (x : HaltReason × Nat) : Dev :=
  let u := match e.op with
    | .mard arr .. => d.physUnit n arr.val
    | _ => addrUnit x.2
  (if x.1 = .eccUncorrectable then d.eccEvent (d.jobOf n) u x.2 else d).matrixHalt n x.1 x.2 e.pos

/-- Let drains run, vectors enter and operations leave the queue until something is missing. -/
def Dev.pump : Nat → Dev → Nat → Dev
  | 0, d, _ => d
  | k + 1, d, n =>
    let d := d.deliverFeed n
    let dr := match (d.core n).drains with
      | p :: _ => d.drainNow n p
      | [] => .wait d
    match dr with
    | .halt d => d
    | .ok d => Dev.pump k d n
    | .wait d =>
      let c := d.core n
      match c.stream with
      | some st =>
        if c.streamBlocked st then d
        else match d.nextVector n st with
        | .wait => d
        | .halt d r aux => d.matrixHalt n r aux st.pos
        | .miss d arr => d.detect n arr .residue st.pos
        | .ok d =>
          let d := d.updCore n (fun c => { c with stream :=
            if st.v ≤ st.j + 1 then none else c.stream.map (fun s => { s with j := st.j + 1 }) })
          Dev.pump k d n
      | none =>
        match c.mq with
        | [] => d
        | e :: rest =>
          if d.matrixBlocked n e then d
          else match d.issueMatrix n e with
          | .error x => d.issueHalt n e x
          | .ok d =>
            let d := (d.updCore n (fun c => { c with mq := rest }.markMatrix)).issued n
            Dev.pump k d n

/-- Enough steps for a full queue of streams. -/
def pumpFuel : Nat := 6000

def Dev.run (d : Dev) (n : Nat) : Dev := if d.issuing n then d.pump pumpFuel n else d

/-! ### The matrix slot (R46, R160 to R163) -/

/-- The core's matrix slot can take the operation of its bundle in issue. -/
def Core.matrixFree (c : Core) : Bool :=
  match c.cur with
  | some b => !b.queued && !bit b.issued.toNat slotMatrix
  | none => true

/-- An operation enters the matrix queue after the checks made there; the slot stalls while four are queued. -/
def Dev.matrixOp (d : Dev) (c : At) (f : View → Chk MOp) : Dev :=
  let n := c.core.val
  if !d.issuing n || !(d.core n).matrixFree then d
  else
    let d := d.meetAt c
    if c.ph.reg then d.regHalt n slotMatrix (d.curPos n)
    else if 4 ≤ (d.core n).mq.length then d.run n
    else match f (d.core n).operands with
      | .error e => d.haltGang n e.1 slotMatrix e.2 (d.curPos n)
      | .ok op =>
        let e : MEntry := { ord := (d.core n).ord, pos := d.curPos n, op := op }
        let d := d.updCore n (fun c => { c with
          mq := c.mq ++ [e], cur := c.cur.map (fun b => { b with queued := true }) })
        d.run n

/-- MSTREAM (R53, R161): COUNT_RANGE and the one-lane bound are tested at queue entry. -/
def execMstream (c : At) (amask : BitVec 4) (add outl feed : Bool) (ent : Fin 1024) (sv : Fin 32) (ad : Fin 16) (se : Fin 32)
    (s : State) := slotAct (.mstream c amask add outl feed ent sv ad se) s (fun d =>
  d.matrixOp c (fun v => do
    let cnt := low32 (v.rs sv)
    let base := ent.val + low32 (v.rs se)
    require (decide (1 ≤ cnt ∧ cnt ≤ 1024)) .countRange cnt
    require (decide (base + cnt ≤ 1024)) .arrayState
    pure (.mstream amask add outl feed base cnt (v.ra ad))))

def execMswap (c : At) (amask : BitVec 4) (s : State) :=
  slotAct (.mswap c amask) s (fun d => d.matrixOp c (fun _ => .ok (.mswap amask)))

/-- MCLR (R163). -/
def execMclr (c : At) (amask : BitVec 4) (ent : Fin 1024) (sn : Fin 32) (fp : Bool) (s : State) :=
  slotAct (.mclr c amask ent sn fp) s (fun d =>
    d.matrixOp c (fun v => .ok (.mclr amask ent.val (low32 (v.rs sn)) fp)))

/-- MARD (R163). -/
def execMard (c : At) (arr : Fin 4) (ent : Fin 1024) (vd : Fin 32) (half : Bool) (s : State) :=
  slotAct (.mard c arr ent vd half) s (fun d => d.matrixOp c (fun _ => .ok (.mard arr ent.val vd half)))

/-- MAWR (R163). -/
def execMawr (c : At) (arr : Fin 4) (ent : Fin 1024) (va : Fin 32) (half fp : Bool) (s : State) :=
  slotAct (.mawr c arr ent va half fp) s (fun d =>
    d.matrixOp c (fun v => do
      let x ← v.needV va
      pure (.mawr arr ent.val (BitVec.ofNat 2048 (x.toNat / (if half then pow2 2048 else 1))) fp)))

/-! ### WFILL, DRAIN and the regulator -/

/-- WFILL: its bytes are read when its requests have issued, and enter the feed queue as there is room; until then the
slot waits. -/
def execWfill (c : At) (am as : Fin 16) (sm ss : Fin 32) (s : State) := slotAct (.wfill c am as sm ss) s (fun d =>
  let n := c.core.val
  if (d.core n).filling then d.run n
  else
    let chk (d : Dev) (v : View) : Chk (List Byte × List Byte) := do
      let km := low32 (v.rs sm)
      let ks := low32 (v.rs ss)
      require (decide (km % 32 = 0 ∧ km ≤ feedMainSize)) .countRange km
      require (decide (ks ≤ feedSideSize)) .countRange ks
      d.access (v.ra am).toNat km 1
      d.access (v.ra as).toNat ks 1
      let m ← d.fetchBytes n (v.ra am).toNat km
      let x ← d.fetchBytes n (v.ra as).toNat ks
      pure (m, x)
    (d.slot c slotLoad (fun d n v =>
      if d.afterDrain n (fun d => chk d v) then .wait d
      else match chk d v with
      | .error e => d.memHalt n e
      | .ok (m, x) =>
        let a1 := (v.ra am).toNat
        let a2 := (v.ra as).toNat
        let r := d.meter n slotLoad (d.charged a1 m.length + d.charged a2 x.length)
        if r.2 then
          .wait (((r.1.countRd a1 m.length).countRd a2 x.length).updCore n (fun c =>
            { c with feedSrc := c.feedSrc ++ [.wfill m x] }))
        else .wait r.1)).run n)

/-- DRAIN: its checks and the reads of its descriptor and tables at issue; then it waits for its entries, and reads, converts
and writes them in the drain path (R49, R173). -/
def execDrain (c : At) (amask : BitVec 4) (ent : Fin 1024) (sn : Fin 32) (ad ao : Fin 16) (stats first last : Bool)
    (s : State) := slotAct (.drain c amask ent sn ad ao stats first last) s (fun d =>
  (d.slot c slotStore (fun d n v =>
    if d.afterDrain n (fun d => d.drainPlan n v amask ent sn ad ao stats first last) || (d.core n).loadPending then .wait d
    else match d.drainPlan n v amask ent sn ad ao stats first last with
    | .error e => d.memHalt n e
    | .ok p => .ok (d.updCore n (fun c => { c with drains := c.drains ++ [p] })))).run c.core.val)

/-- REGULATED_REQUEST: the held request of a core issues when both buckets allow it and no core that goes before it can
issue; `cycles` NCLK it was held are counted. -/
def execRegulatedRequest (core : Fin 8) (cycles : Nat) (s : State) := act s (fun d =>
  (d.regulated core.val cycles).run core.val)

end Sys2Proof.Machine
end

