-- ==== Sys2Proof/Machine/Scalar.lean ====
section
/-! DEFINITION. The scalar slot (R147 to R149): arithmetic, address registers, special registers, branches. -/

namespace Sys2Proof.Machine

/-- The scalar slot's number (Table 4.2). -/
def slotScalar : Nat := 0

/-- A scalar operation that writes sD with a function of its operands. -/
def Dev.scalarOp (d : Dev) (c : At) (sd : Fin 32) (f : View → Dword) : Dev :=
  d.slot c slotScalar (fun d n v => .ok (d.ws n sd (f v)))

/-- An address operation that writes aD. -/
def Dev.addrOp (d : Dev) (c : At) (ad : Fin 16) (f : View → Addr) : Dev :=
  d.slot c slotScalar (fun d n v => .ok (d.wa n ad (f v)))

def setIf (b : Bool) : Dword := if b then 1 else 0
def imm30 (i : BitVec 30) : Dword := i.signExtend 64
def imm32 (i : BitVec 32) : Dword := i.signExtend 64
/-- A shift amount: bits [5:0] of its source (R148). -/
def amount (x : Dword) : Nat := x.toNat % 64

def execAdd (c : At) (sd sa sb : Fin 32) (s : State) :=
  slotAct (.add c sd sa sb) s (fun d => d.scalarOp c sd (fun v => v.rs sa + v.rs sb))
def execSub (c : At) (sd sa sb : Fin 32) (s : State) :=
  slotAct (.sub c sd sa sb) s (fun d => d.scalarOp c sd (fun v => v.rs sa - v.rs sb))
def execMul (c : At) (sd sa sb : Fin 32) (s : State) :=
  slotAct (.mul c sd sa sb) s (fun d => d.scalarOp c sd (fun v => v.rs sa * v.rs sb))
/-- Bits [127:64] of the signed product. -/
def execMulh (c : At) (sd sa sb : Fin 32) (s : State) :=
  slotAct (.mulh c sd sa sb) s (fun d =>
    d.scalarOp c sd (fun v => BitVec.ofInt 64 ((v.rs sa).toInt * (v.rs sb).toInt / (pow2 64 : Int))))
def execAnd (c : At) (sd sa sb : Fin 32) (s : State) :=
  slotAct (.and c sd sa sb) s (fun d => d.scalarOp c sd (fun v => v.rs sa &&& v.rs sb))
def execOr (c : At) (sd sa sb : Fin 32) (s : State) :=
  slotAct (.or c sd sa sb) s (fun d => d.scalarOp c sd (fun v => v.rs sa ||| v.rs sb))
def execXor (c : At) (sd sa sb : Fin 32) (s : State) :=
  slotAct (.xor c sd sa sb) s (fun d => d.scalarOp c sd (fun v => v.rs sa ^^^ v.rs sb))
def execShl (c : At) (sd sa sb : Fin 32) (s : State) :=
  slotAct (.shl c sd sa sb) s (fun d => d.scalarOp c sd (fun v => v.rs sa <<< amount (v.rs sb)))
def execShr (c : At) (sd sa sb : Fin 32) (s : State) :=
  slotAct (.shr c sd sa sb) s (fun d => d.scalarOp c sd (fun v => v.rs sa >>> amount (v.rs sb)))
def execSra (c : At) (sd sa sb : Fin 32) (s : State) :=
  slotAct (.sra c sd sa sb) s (fun d => d.scalarOp c sd (fun v => (v.rs sa).sshiftRight (amount (v.rs sb))))
def execMin (c : At) (sd sa sb : Fin 32) (s : State) :=
  slotAct (.min c sd sa sb) s (fun d => d.scalarOp c sd (fun v => if (v.rs sb).slt (v.rs sa) then v.rs sb else v.rs sa))
def execMax (c : At) (sd sa sb : Fin 32) (s : State) :=
  slotAct (.max c sd sa sb) s (fun d => d.scalarOp c sd (fun v => if (v.rs sa).slt (v.rs sb) then v.rs sb else v.rs sa))
def execMinu (c : At) (sd sa sb : Fin 32) (s : State) :=
  slotAct (.minu c sd sa sb) s (fun d => d.scalarOp c sd (fun v => if (v.rs sb).ult (v.rs sa) then v.rs sb else v.rs sa))
def execMaxu (c : At) (sd sa sb : Fin 32) (s : State) :=
  slotAct (.maxu c sd sa sb) s (fun d => d.scalarOp c sd (fun v => if (v.rs sa).ult (v.rs sb) then v.rs sb else v.rs sa))
def execSlt (c : At) (sd sa sb : Fin 32) (s : State) :=
  slotAct (.slt c sd sa sb) s (fun d => d.scalarOp c sd (fun v => setIf ((v.rs sa).slt (v.rs sb))))
def execSltu (c : At) (sd sa sb : Fin 32) (s : State) :=
  slotAct (.sltu c sd sa sb) s (fun d => d.scalarOp c sd (fun v => setIf ((v.rs sa).ult (v.rs sb))))
def execSeq (c : At) (sd sa sb : Fin 32) (s : State) :=
  slotAct (.seq c sd sa sb) s (fun d => d.scalarOp c sd (fun v => setIf (v.rs sa == v.rs sb)))
def execAddi (c : At) (sd sa : Fin 32) (imm : BitVec 30) (s : State) :=
  slotAct (.addi c sd sa imm) s (fun d => d.scalarOp c sd (fun v => v.rs sa + imm30 imm))
def execAndi (c : At) (sd sa : Fin 32) (imm : BitVec 30) (s : State) :=
  slotAct (.andi c sd sa imm) s (fun d => d.scalarOp c sd (fun v => v.rs sa &&& imm30 imm))
def execOri (c : At) (sd sa : Fin 32) (imm : BitVec 30) (s : State) :=
  slotAct (.ori c sd sa imm) s (fun d => d.scalarOp c sd (fun v => v.rs sa ||| imm30 imm))
def execXori (c : At) (sd sa : Fin 32) (imm : BitVec 30) (s : State) :=
  slotAct (.xori c sd sa imm) s (fun d => d.scalarOp c sd (fun v => v.rs sa ^^^ imm30 imm))
def execShli (c : At) (sd sa : Fin 32) (k : Fin 64) (s : State) :=
  slotAct (.shli c sd sa k) s (fun d => d.scalarOp c sd (fun v => v.rs sa <<< k.val))
def execShri (c : At) (sd sa : Fin 32) (k : Fin 64) (s : State) :=
  slotAct (.shri c sd sa k) s (fun d => d.scalarOp c sd (fun v => v.rs sa >>> k.val))
def execSrai (c : At) (sd sa : Fin 32) (k : Fin 64) (s : State) :=
  slotAct (.srai c sd sa k) s (fun d => d.scalarOp c sd (fun v => (v.rs sa).sshiftRight k.val))
def execSlti (c : At) (sd sa : Fin 32) (imm : BitVec 30) (s : State) :=
  slotAct (.slti c sd sa imm) s (fun d => d.scalarOp c sd (fun v => setIf ((v.rs sa).slt (imm30 imm))))
def execLi (c : At) (sd : Fin 32) (imm : BitVec 32) (s : State) :=
  slotAct (.li c sd imm) s (fun d => d.scalarOp c sd (fun _ => imm32 imm))
/-- sD[63:32] = IMM32; sD[31:0] is unchanged. -/
def execLih (c : At) (sd : Fin 32) (imm : BitVec 32) (s : State) :=
  slotAct (.lih c sd imm) s (fun d => d.scalarOp c sd (fun v => imm ++ (v.rs sd).setWidth 32))
/-- Address results keep bits [47:0] and wrap modulo 2^48 (R148). -/
def execAadd (c : At) (ad aa : Fin 16) (sb : Fin 32) (s : State) :=
  slotAct (.aadd c ad aa sb) s (fun d => d.addrOp c ad (fun v => v.ra aa + (v.rs sb).setWidth 48))
def execAaddi (c : At) (ad aa : Fin 16) (imm : BitVec 32) (s : State) :=
  slotAct (.aaddi c ad aa imm) s (fun d => d.addrOp c ad (fun v => v.ra aa + imm.signExtend 48))
def execAmov (c : At) (ad : Fin 16) (sb : Fin 32) (s : State) :=
  slotAct (.amov c ad sb) s (fun d => d.addrOp c ad (fun v => (v.rs sb).setWidth 48))
def execMova (c : At) (sd : Fin 32) (aa : Fin 16) (s : State) :=
  slotAct (.mova c sd aa) s (fun d => d.scalarOp c sd (fun v => (v.ra aa).setWidth 64))

/-! ### Special registers (Table 4.5) -/

/-- The logical index of a core in its gang. -/
def Dev.logical (d : Dev) (n : Nat) : Nat :=
  match d.jobOf n with
  | some (_, j) => (j.indexed.find? (fun e => e.2 = n)).elim 0 (·.1)
  | none => 0

/-- The value MFS reads (Table 4.5); STICKY, RETIRED and the loop registers are read under R112. -/
def Dev.special (d : Dev) (n : Nat) (v : View) (x : Spec) : Dword :=
  let c := d.core n
  let job {α : Type} (z : α) (f : Job → α) : α := match d.jobOf n with
    | some (_, j) => f j
    | none => z
  match x with
  | .coreId => BitVec.ofNat 64 (d.logical n)
  | .gangSize => BitVec.ofNat 64 (job 0 (fun j => j.members.length))
  | .contextId => BitVec.ofNat 64 (job 0 (fun j => j.ctx))
  | .queueId => BitVec.ofNat 64 (job 0 (fun j => j.queue))
  | .jobTag => job 0 (fun j => j.tag.setWidth 64)
  | .layerCount => c.layerCount.setWidth 64
  | .retiredLo => (v.retired.setWidth 32).setWidth 64
  | .retiredHi => v.retired >>> 32
  | .cycleLo => BitVec.ofNat 64 (d.cycles % pow2 32)
  | .cycleHi => BitVec.ofNat 64 (d.cycles / pow2 32 % pow2 32)
  | .physCore => BitVec.ofNat 64 (d.hostOf n)
  | .timeLo => (d.time.setWidth 32).setWidth 64
  | .timeHi => d.time >>> 32
  | .replays => BitVec.ofNat 64 (job 0 (fun j => j.replays))
  | .sticky => v.sticky.setWidth 64
  | .lc k => (Tbl.getD v.lc k.val 0).setWidth 64
  | .loopDepth => BitVec.ofNat 64 v.depth

/-- An MSTREAM of an earlier bundle is still to write its results, and with them ACC_WRAP (R54, R112). -/
def Core.earlierStream (c : Core) : Bool :=
  let here := (c.cur.map (fun b => b.view.retired.toNat)).getD 0
  c.stream.any (fun st => decide (st.ord < here)) ||
  c.mq.any (fun e =>
    match e.op with
    | .mstream .. => decide (e.ord < here)
    | _ => false)

/-- MFS of STICKY waits for every earlier bundle's stream (R112, R121). -/
def execMfs (c : At) (sd : Fin 32) (x : Spec) (s : State) := slotAct (.mfs c sd x) s (fun d =>
  d.slot c slotScalar (fun d n v =>
    if x = .sticky ∧ (d.core n).earlierStream then .wait d else .ok (d.ws n sd (d.special n v x))))

/-- MTS writes STICKY, which is W1C (R122, R149): after every earlier bundle's stream. A bit that the bundle's own operations
raise stays set. -/
def execMts (c : At) (sb : Fin 32) (s : State) := slotAct (.mts c sb) s (fun d =>
  d.slot c slotScalar (fun d n v =>
    if (d.core n).earlierStream then .wait d
    else .ok (d.updCore n (fun k => { k with
      sticky := (k.sticky &&& ~~~ ((v.rs sb).setWidth 2)) ||| (k.cur.map (fun b => b.raised)).getD 0 }))))

end Sys2Proof.Machine
end

