-- ==== Sys2Proof/Machine/Sequencer.lean ====
section
/-! DEFINITION. The sequencer (chapter 4): fetch and broadcast, decode, retirement, branches and loops, and the stall
watchdog. -/

namespace Sys2Proof.Machine

/-! ### Gangs -/

/-- The members of a core's gang; a core without a job stands alone. -/
def Dev.gangOf (d : Dev) (n : Nat) : Nat × List Nat :=
  match d.jobOf n with
  | some (l, j) => (l, j.members)
  | none => (n, [n])

/-- Every bundle broadcast to the core has retired. -/
def Core.drained (c : Core) : Bool := c.iq.isEmpty && c.cur.isNone && c.older.isEmpty

def Dev.allDrained (d : Dev) (j : Job) : Bool := j.members.all (fun n => (d.core n).drained)

/-- BISECT_COUNT of the gang's leader, where it is in force and has not stopped the gang yet (R137). -/
def Dev.bisect (d : Dev) (l : Nat) (j : Job) : Option Nat :=
  let c := d.reg64 (Reg.CCn_BISECT_COUNT_LO l) (Reg.CCn_BISECT_COUNT_HI l)
  if c ≠ 0 ∧ d.armed l j.ctx ∧ j.skipCount ≠ some c then some c else none

/-- A member stands after exactly `t` retired bundles with none in issue. -/
def Core.standsAt (c : Core) (t : Nat) : Bool := c.retired.toNat = t && c.inFlight = 0

/-- Every member stands after exactly `t` retired bundles with none in issue. -/
def Dev.standsAt (d : Dev) (j : Job) (t : Nat) : Bool := j.members.all (fun n => (d.core n).standsAt t)

/-- RETIRED has reached a count of BISECT_COUNT: every member stands there, members apart that were past it when the count
was written (R137). -/
def Dev.countReached (d : Dev) (j : Job) (t : Nat) : Bool :=
  j.members.any (fun n => (d.core n).standsAt t) &&
  j.members.all (fun n => (d.core n).standsAt t || decide (t < (d.core n).retired.toNat))

/-- HALT_AT_COUNT and HOST_HALT once every member has come to the bundle at which the gang stops (R135, R137). -/
def Dev.tryStop (d : Dev) (l : Nat) : Dev :=
  match d.job? l with
  | none => d
  | some j =>
    if j.state ≠ .running then d
    else
      let byCount := match d.bisect l j with
        | some c => d.countReached j c
        | none => false
      let byHost := match j.haltAt with
        | some t => d.standsAt j t
        | none => false
      if byCount then
        (d.updJob l (fun j => { j with skipCount := d.bisect l j })).haltGang l .haltAtCount noSlot 0 (d.oldest l)
      else if byHost then d.haltGang l .hostHalt noSlot 0 (d.oldest l)
      else d

/-! ### Fetch (R108, R109, R114 to R116, R136) -/

/-- The instruction cache holds 128 KiB of 256-byte blocks (R109). -/
def icacheBlocks : Nat := 512

/-- Line `l` of a code block. -/
def blockLine (b : BitVec 2048) (l : Nat) : BitVec 256 := b.extractLsb' (256 * l) 256

/-- The tag line is good (R115, R116). -/
def tagLineOk (line : BitVec 256) (block : Nat) : Bool :=
  let x := line.toNat
  decide (bits x 0 8 = 0xB7 ∧ bits x 15 1 = 0 ∧ bits x 16 16 = block % 65536)

/-- The breakpoint of the leader that the bundle at byte offset `pc` meets (R136). -/
def Dev.breakpoint (d : Dev) (l : Nat) (j : Job) (pc : Nat) : Option Nat :=
  if d.armed l j.ctx ∧ j.skipBkpt ≠ some pc then
    (List.range 4).find? (fun b =>
      d.fld (Reg.CCn_BKPTb l b) Fld.CCn_BKPTb_EN = 1 && d.fld (Reg.CCn_BKPTb l b) Fld.CCn_BKPTb_ADDR = pc / 32)
  else none

/-- A halt found at fetch takes effect when every earlier bundle has retired. -/
def Dev.fetchHalt (d : Dev) (l : Nat) (j : Job) (r : HaltReason) (aux : Nat) (at_ : Nat × Word) : Dev :=
  if d.allDrained j then d.haltGang l r noSlot aux at_ else d

/-- Broadcast one bundle to every member's issue queue. -/
def Dev.broadcast (d : Dev) (l : Nat) (j : Job) (q : QBundle) : Dev :=
  let lastOfBody := (d.core l).loops.any (fun x => x.last = q.idx)
  let d := j.members.foldl (fun d n => d.updCore n (fun c => { c with iq := c.iq ++ [q] })) d
  d.setJob l { j with fetch := j.fetch + 1, hold := isControl q.bits || lastOfBody }

def Dev.fetch (d : Dev) (l : Nat) : Dev :=
  match d.job? l with
  | none => d
  | some j =>
    if j.state ≠ .running ∨ j.hold ∨ j.miss.isSome ∨ j.members.any (fun n => decide (32 ≤ (d.core n).iq.length)) then d
    else
      let pc := pcOf j.tagged j.fetch
      if j.codeLen ≤ pc then d.fetchHalt l j .addressRange (j.code + pc) (j.fetch, d.codeTag l j j.fetch)
      else
        let blk := j.code + pc / 256 * 256
        match Tbl.find? (d.core l).icache blk with
        | none => d.setJob l { j with miss := some blk }
        | some b =>
          let k := pc / 32 % 8
          let tagLine := blockLine b 0
          if j.tagged && !tagLineOk tagLine (pc / 256) then d.fetchHalt l j .tagLine 0 (j.fetch, d.codeTag l j j.fetch)
          else
            let tag : Word := if j.tagged then tagLine.extractLsb' (32 * k) 32 else 0
            let valid := !j.tagged || bit tagLine.toNat (8 + (k - 1))
            match d.breakpoint l j pc with
            | some n => d.fetchHalt l j .breakpoint n (j.fetch, tag)
            | none => d.broadcast l j { idx := j.fetch, bits := blockLine b k, tag := tag, valid := valid }

/-- What the sequencer of core `n` meets in a step of its job: copies that differ (R320), or an uncorrectable word of its
register files or instruction cache (R186); otherwise its effect. The bundle concerned is at `pos`. -/
def Dev.seqStep (d : Dev) (c : At) (pos : Dev → Nat → Job → Nat × Word) (f : Dev → Nat → Job → Dev) : Dev :=
  let n := c.core.val
  let d := d.meetAt c
  match d.jobOf n with
  | none => d
  | some (l, j) =>
    if j.state ≠ .running ∨ (d.core n).halted then d
    else if c.ph.reg then d.regHalt n noSlot (pos d l j)
    else if c.ph.dup then d.detect n 4 .duplicate (pos d l j)
    else f d l j

/-- The bundle that is fetched next. -/
def Dev.fetchPos (d : Dev) (l : Nat) (j : Job) : Nat × Word := (j.fetch, d.codeTag l j j.fetch)

/-- BUNDLE_FETCH (R108): the leader is named. -/
def execBundleFetch (c : At) (s : State) := act s (fun d =>
  d.seqStep c Dev.fetchPos (fun d _ _ => d.fetch c.core.val))

/-- Keep the instruction cache within its size; which block goes is free. -/
def evict (ctr : Nat) (t : Tbl (BitVec 2048)) : Tbl (BitVec 2048) :=
  if t.length < icacheBlocks then t else t.eraseIdx ((Config.freeWord ctr 0).toNat % t.length)

/-- ICACHE_FILL (R109): the missing block arrives. A block that cannot be read has no tag that could be read. -/
def Dev.icacheFill (d : Dev) (l : Nat) : Dev :=
  match d.job? l with
  | none => d
  | some j =>
    match j.miss with
    | none => d
    | some blk =>
      let d := d.countRd blk 256
      match d.poisoned blk 256 with
      | some a => (d.eccEvent (some (l, j)) (addrUnit a) a).haltGang l .eccUncorrectable noSlot a (j.fetch, 0)
      | none =>
        let b := BitVec.ofNat 2048 (leNat (d.bytes (agentCore l) blk 256))
        (d.updCore l (fun c => { c with icache := Tbl.set (evict d.ctr c.icache) blk b })).setJob l { j with miss := none }

def execIcacheFill (c : At) (s : State) := act s (fun d =>
  let l := c.core.val
  let d := d.meetAt c
  match d.job? l with
  | none => d
  | some j =>
    if c.ph.dup && j.miss.isSome && decide (j.state = .running) then d.detect l 4 .duplicate (d.fetchPos l j)
    else d.icacheFill l)

/-! ### Decode (R111, R112, R116) -/

/-- The bundle in issue has issued every slot, but for a matrix operation that waits in the matrix queue (R160). -/
def InFlight.doneButMatrix (b : InFlight) : Bool :=
  b.issued = 63#6 || (b.queued && (b.issued ||| 4#6) = 63#6)

def MOp.isMard : MOp → Bool
  | .mard .. => true
  | _ => false

/-- A bundle names vector registers: its vector slot is no NOP, or another slot holds MARD, MAWR, VLD, VGTH, VST or VSCT. -/
def touchesVector (b : BitVec 256) : Bool :=
  let op (k : Nat) : Nat := bits (slotBits b k) 0 6
  decide (bits (slotBits b 1) 0 8 ≠ 0 ∨ op 2 = 4 ∨ op 2 = 5 ∨ op 3 = 2 ∨ op 3 = 3 ∨ op 4 = 2 ∨ op 4 = 3)

/-- Where one core executes the bundles of two members, it takes each bundle in the order of their logical indices (R330). -/
def Dev.hostTurn (d : Dev) (n : Nat) (j : Job) : Bool :=
  let m := partner n
  let at_ (k : Nat) : Nat := (d.core k).retired.toNat + (d.core k).inFlight
  if !j.members.contains m || !((d.core n).hostedLogic || (d.core m).hostedLogic) then true
  else if j.members.idxOf n < j.members.idxOf m then decide (at_ n ≤ at_ m)
  else decide (at_ n < at_ m)

/-- The core may decode its next bundle: the one before it has issued, no register that it may name is still to be written by
an earlier bundle's MARD, and the gang is not to stop before it. -/
def Dev.mayDecode (d : Dev) (n l : Nat) (j : Job) : Bool :=
  let c := d.core n
  let t := c.retired.toNat + c.inFlight
  decide (j.state = .running) && !c.halted && !j.layerHeld && !c.atLayer && d.hostTurn n j &&
  (match c.cur with
   | some b => b.doneButMatrix
   | none => true) &&
  !(c.mq.any (·.op.isMard) && c.iq.head?.any (fun q => touchesVector q.bits)) &&
  (match j.haltAt with
   | some h => decide (t < h)
   | none => true) &&
  (match d.bisect l j with
   | some h => decide (t < h ∨ h < c.retired.toNat)
   | none => true)

def Dev.decodeBundle (d : Dev) (n l : Nat) (j : Job) : Dev :=
  let c := d.core n
  if !d.mayDecode n l j then d.tryStop l
  else match c.iq with
    | [] => d
    | q :: rest =>
      let pos := (q.idx, q.tag)
      if !q.valid then d.haltGang n .tagLine noSlot 0 pos
      else match bundleChk q.bits with
        | some (r, k, aux) => d.haltGang n r k aux pos
        | none =>
          let c := c.boundary
          (d.setCore n { c with
            iq := rest
            older := c.older ++ c.cur.toList
            cur := some { q := q, issued := BitVec.ofNat 6 (nopMask q.bits), view := c.view }
            taken := false, branchTo := none, waiting := none }).run n

/-- BUNDLE_DECODE: what an earlier bundle waits for may have come meanwhile. -/
def execBundleDecode (c : At) (s : State) := act s (fun d =>
  d.seqStep c (fun d _ _ => d.oldest c.core.val) (fun d l j => d.decodeBundle c.core.val l j))

/-! ### Retirement (R113, R129) -/

/-- End-of-body tests at bundle `idx`, from the level `k - 1` outwards: loops, counters, where execution continues, and how
many levels closed. -/
def endOfBody (idx : Nat) : Nat → List Loop → Tbl Word → List Loop × Tbl Word × Option Nat × Nat
  | 0, ls, lc => (ls, lc, none, 0)
  | k + 1, ls, lc =>
    match ls[k]? with
    | none => endOfBody idx k ls lc
    | some x =>
      if x.last ≠ idx then endOfBody idx k ls lc
      else
        let v := (Tbl.getD lc k 0).toNat
        if v ≤ 1 then
          let r := endOfBody idx k (ls.take k) (Tbl.set lc k 0)
          (r.1, r.2.1, r.2.2.1, r.2.2.2 + 1)
        else (ls, Tbl.set lc k (BitVec.ofNat 32 (v - 1)), some x.first, 0)

/-- One Trail record per closed loop level (R138). -/
def Dev.trailExits (d : Dev) (n idx : Nat) (tag : Word) : Nat → Dev
  | 0 => d
  | k + 1 => (d.trail n 0x03 noSlot 0 idx tag).trailExits n idx tag k

/-- SAMPLE records once every 2^SAMPLE retired bundles; above 24 it counts as 24 (R138, Table 4.9). -/
def Dev.trailSampleRec (d : Dev) (n idx : Nat) (tag : Word) : Dev :=
  let s := Nat.min 24 (Fld.CCn_TRAIL_CTRL_SAMPLE.get (d.reg (Reg.CCn_TRAIL_CTRL n)))
  if s ≠ 0 ∧ (d.core n).retired.toNat % pow2 s = 0 then d.trail n 0x09 noSlot 0 idx tag else d

/-- The oldest bundle of core n retires: it leaves the issue, its end-of-body tests run, RETIRED increases. -/
def Dev.retireOne (d : Dev) (n : Nat) (b : InFlight) : Dev :=
  let c := d.core n
  let idx := b.q.idx
  let r := if c.taken then (c.loops, c.lc, none, 0) else endOfBody idx c.loops.length c.loops c.lc
  let next := match r.2.2.1 with
    | some x => x
    | none => c.branchTo.getD (idx + 1)
  let c := { c with
    loops := r.1, lc := r.2.1, next := next, retired := c.retired + 1,
    older := c.older.drop 1, cur := if c.older.isEmpty then none else c.cur,
    branchTo := if c.older.isEmpty then none else c.branchTo,
    taken := if c.older.isEmpty then false else c.taken }
  let d := (d.setCore n c).trailExits n idx b.q.tag r.2.2.2
  d.trailSampleRec n idx b.q.tag

/-- What follows a retirement for the gang: a leader that matched a breakpoint may match it again, a held broadcast goes
on where execution continues, and the gang stops where it must. -/
def Dev.afterRetire (d : Dev) (n l idx : Nat) : Dev :=
  match d.job? l with
  | none => d
  | some j =>
    let j := if n = l ∧ j.skipBkpt.isSome ∧ j.skipBkpt ≠ some (pcOf j.tagged idx) then { j with skipBkpt := none } else j
    let j := if j.hold ∧ d.allDrained j then { j with hold := false, fetch := (d.core l).next } else j
    (d.setJob l j).tryStop l

/-- The oldest unretired bundle of a core. -/
def Core.head (c : Core) : Option InFlight :=
  match c.older with
  | b :: _ => some b
  | [] => c.cur

def Dev.retire (d : Dev) (n : Nat) : Dev :=
  match d.jobOf n with
  | none => d
  | some (l, j) =>
    match (d.core n).head with
    | some b =>
      if j.state = .running ∧ !(d.core n).halted ∧ b.issued = 63#6 then (d.retireOne n b).afterRetire n l b.q.idx else d
    | none => d

/-- BUNDLE_RETIRE. -/
def execBundleRetire (c : At) (s : State) := act s (fun d =>
  d.seqStep c (fun d _ _ => d.oldest c.core.val) (fun d _ _ => d.retire c.core.val))

/-! ### The watchdog (R123) -/

/-- STALL_WATCHDOG: `cycles` more ACLK without an issue in the leader's gang; the gang halts when the count reaches the
limit. The count is held while the gang is halted, and does not run while a member is in a WAIT on an event flag. -/
def execStallWatchdog (leader : Fin 8) (cycles : Nat) (s : State) := act s (fun d =>
  let l := leader.val
  match d.job? l with
  | none => d
  | some j =>
    if j.state ≠ .running ∨ j.members.any (fun n => decide ((d.core n).waiting = some .flag)) then d
    else
      let n := (d.core l).stall + cycles
      let lim := (d.reg (Reg.CCn_STALL_LIMIT l)).toNat
      let d := d.updCore l (fun c => { c with stall := n })
      if lim ≠ 0 ∧ lim ≤ n then d.haltGang l .stallWatchdog noSlot 0 (d.oldest l) else d)

/-- NOP (R110): opcode 0 in any slot does nothing. -/
def execNop (_c : At) (_slot : Fin 6) (s : State) := act s (fun d => d)

/-! ### Decisions that a gang takes together (R109) -/

def slotSync : Nat := 5

/-- A member's pending report for a slot. -/
def Core.rep (c : Core) (k : Nat) : Option Decision := if k = slotScalar then c.scalarRep else c.syncRep
def Core.setRep (c : Core) (k : Nat) (x : Option Decision) : Core :=
  if k = slotScalar then { c with scalarRep := x } else { c with syncRep := x }

/-- The bundle index of the bundle in issue. -/
def Core.here (c : Core) : Nat :=
  match c.cur with
  | some b => b.q.idx
  | none => c.next

/-- A loop's body holds a bundle index. -/
def Loop.holds (x : Loop) (i : Nat) : Bool := decide (x.first ≤ i ∧ i ≤ x.last)

/-- A bundle index as 32 bits; an index below 0 lies beyond every code. -/
def bundleIdx (t : Int) : Nat := unsgn 32 t

/-- A taken branch: the levels whose body does not hold the target close, with every level inside them (R131). -/
def Dev.takeBranch (d : Dev) (n target : Nat) : Dev :=
  let c := d.core n
  let keep := c.loops.takeWhile (fun x => x.holds target)
  let closed := c.loops.length - keep.length
  let pos := d.curPos n
  let d := d.updCore n (fun c => { c with branchTo := some target, taken := true, loops := keep })
  (d.trail n 0x02 slotScalar 0 pos.1 pos.2).trailExits n pos.1 pos.2 closed

/-- Close a decision: the slot has issued in every member. -/
def Dev.closeDecision (d : Dev) (ms : List Nat) (k : Nat) (f : Core → Core) : Dev :=
  ms.foldl (fun d n => (d.updCore n (fun c => (f c).mark k)).issued n) d

/-- The leader acts on a decision that every member reported alike. Where a LOOP breaks LOOP_DEPTH and LOOP_STATE at once,
DESIGN CHOICE: the lower reason code is reported, as R111 orders the checks of a decoder (the spec orders the two nowhere).
Where a bundle holds both a taken branch and a LOOP, DESIGN CHOICE: each takes effect as it resolves, and the one that
resolves last decides which levels stay live and where execution continues (the spec does not say which acts first). -/
def Dev.applyDecision (d : Dev) (l : Nat) (ms : List Nat) (k : Nat) (x : Decision) : Dev :=
  let c := d.core l
  let i := c.here
  let jump (t : Nat) : Dev :=
    if c.loops.any (fun x => x.last = i) then d.haltGang l .loopState k 0 (d.curPos l)
    else (ms.foldl (fun d n => d.takeBranch n t) d).closeDecision ms k (fun c => c)
  match x with
  | .branch false _ => d.closeDecision ms k (fun c => c)
  | .branch true t => jump (bundleIdx t)
  | .jumpReg t => jump t
  | .loop cnt e =>
    if 4 ≤ c.loops.length then d.haltGang l .loopDepth k 0 (d.curPos l)
    else if e = 0 ∨ c.loops.getLast?.any (fun y => decide (y.last < i + e)) then
      d.haltGang l .loopState k 0 (d.curPos l)
    else if cnt = 0 then d.closeDecision ms k (fun c => { c with branchTo := some (i + e + 1) })
    else d.closeDecision ms k (fun c =>
      { c with lc := Tbl.set c.lc c.loops.length (BitVec.ofNat 32 cnt), loops := c.loops ++ [⟨i + 1, i + e⟩] })
  | .lcset lv v =>
    if c.loops.length ≤ lv then d.haltGang l .loopState k 0 (d.curPos l)
    else d.closeDecision ms k (fun c => { c with lc := Tbl.set c.lc lv (BitVec.ofNat 32 v) })

/-- The logical members whose report differs from the leader's, as a mask (R109). -/
def Dev.differing (d : Dev) (l : Nat) (ms : List Nat) (k : Nat) : Nat :=
  ((List.range ms.length).zip ms).foldl (fun m e =>
    if (d.core e.2).rep k = (d.core l).rep k then m else m + pow2 e.1) 0

/-- The leader acts once every member has reported (R109). -/
def Dev.resolve (d : Dev) (n k : Nat) : Dev :=
  let g := d.gangOf n
  if g.2.all (fun m => ((d.core m).rep k).isSome) then
    let diff := d.differing g.1 g.2 k
    let x := (d.core g.1).rep k
    let d := g.2.foldl (fun d m => d.updCore m (fun c => c.setRep k none)) d
    if diff ≠ 0 then d.haltGang g.1 .divergentBranch k diff (d.curPos g.1)
    else match x with
      | some y => d.applyDecision g.1 g.2 k y
      | none => d
  else d

/-- A member evaluates a decision in slot `k` and reports it. -/
def Dev.report (d : Dev) (c : At) (k : Nat) (f : View → Nat → Decision) : Dev :=
  let n := c.core.val
  if ((d.core n).rep k).isSome then d
  else
    let d' := d.slot c k (fun d n v => .wait (d.updCore n (fun c => c.setRep k (some (f v c.here)))))
    if d'.issuing n then d'.resolve n k else d'

/-- COND of a branch (R149). -/
def condHolds (x : Cond) (a b : Dword) : Bool :=
  match x with
  | .eq => a == b
  | .ne => a != b
  | .lt => a.slt b
  | .ge => !a.slt b
  | .ltu => a.ult b
  | .geu => !a.ult b

def execBr (c : At) (sa sb : Fin 32) (cond : Cond) (off : BitVec 24) (s : State) :=
  slotAct (.br c sa sb cond off) s (fun d =>
  d.report c slotScalar (fun v i => .branch (condHolds cond (v.rs sa) (v.rs sb)) ((i : Int) + off.toInt)))

def execJ (c : At) (off : BitVec 24) (s : State) := slotAct (.j c off) s (fun d =>
  d.report c slotScalar (fun _ i => .branch true ((i : Int) + off.toInt)))

def execJr (c : At) (sa : Fin 32) (s : State) := slotAct (.jr c sa) s (fun d =>
  d.report c slotScalar (fun v _ => .jumpReg ((v.rs sa).toNat % pow2 32)))

/-- LOOP (R127, R128). -/
def execLoop (c : At) (sn : Fin 32) (end_ : BitVec 20) (s : State) := slotAct (.loop c sn end_) s (fun d =>
  d.report c slotSync (fun v _ => .loop ((v.rs sn).toNat % pow2 32) end_.toNat))

/-- LCSET (R130). -/
def execLcset (c : At) (level : Fin 4) (sn : Fin 32) (s : State) := slotAct (.lcset c level sn) s (fun d =>
  d.report c slotSync (fun v _ => .lcset level.val ((v.rs sn).toNat % pow2 32)))

end Sys2Proof.Machine
end

