-- ==== Sys2Proof/Machine/Power.lean ====
section
/-! DEFINITION. The power manager: the effective step and its sources, telemetry, estimate and budgets, droop, supplies and
heat (R345 to R365). Powers are in 0.01 W; a name ending in F is in 1/4,096 of that. -/

namespace Sys2Proof.Machine

def Dev.updPm (d : Dev) (f : Pm → Pm) : Dev := { d with pm := f d.pm }

/-- A power shown in 0.01 W: which way it is rounded is free. -/
def Dev.shown (d : Dev) (salt x den : Nat) : Nat := x / den + b2n (decide (x % den ≠ 0) && Config.freeBit d.ctr salt)

/-! ### Sources of the step (Table 12.1) -/

def Dev.pmMode (d : Dev) : Nat := d.fld Reg.PM_MODE Fld.PM_MODE_MODE
def Dev.fixedStep (d : Dev) : Nat := d.fld Reg.PM_MODE Fld.PM_MODE_FIXED_STEP
def Dev.tj (d : Dev) : Int := sgn 16 (d.fld Reg.PM_TJ Fld.PM_TJ_TEMP)
def Dev.leakF (d : Dev) (s : Nat) : Nat := Config.leak (d.vset s) d.tj * 4096

/-- P exceeds the cap. -/
def Dev.overCap (d : Dev) : Bool := decide ((d.pm.capF : Int) < d.pm.pF)

/-- Boost may act: MANAGED mode, BOOST_EN, thermal level 0. -/
def Dev.boostAllowed (d : Dev) : Bool :=
  decide (d.pmMode = 0 ∧ d.fld Reg.PM_MODE Fld.PM_MODE_BOOST_EN = 1) && !d.pm.l1 && !d.pm.l2

/-- The compute budget of the last interval is below the compute minimum of 8 W (R354). -/
def Dev.starvedComp (d : Dev) : Bool := !d.pm.recent.isEmpty && decide (d.pm.bComp < 800 * 4096)

/-- The step of MANAGED mode: SUST_STEP, or a faster one that boost demands; step 8 while the compute budget is below 8 W (R354,
R358). -/
def Dev.managedStep (d : Dev) : Nat :=
  if d.starvedComp then 8
  else match d.pm.boost with
    | some b => if d.boostAllowed then Nat.min b d.pm.sust else d.pm.sust
    | none => d.pm.sust

/-- The phases of the running gangs: what has been learned of each (R359). -/
def Dev.phases (d : Dev) : List (Option Nat) :=
  (d.jobs.filter (fun (e : Nat × Job) => e.2.phaseOn)).map (fun e => Tbl.find? d.pm.hist (e.2.ctx * 256 + e.2.phase))

/-- FALLBACK_STEP. -/
def Dev.fallbackStep (d : Dev) : Nat := Nat.min 8 (d.fld Reg.PM_MODE Fld.PM_MODE_FALLBACK_STEP)

/-- A running gang's phase has no history. -/
def Dev.noHistory (d : Dev) : Bool := d.phases.any (fun h => h.isNone)

/-- The demand of PHASE mode before the measurement governs it: without history it follows FALLBACK_STEP and SUST_STEP. -/
def Dev.phaseNow (d : Dev) : Nat := if d.noHistory then Nat.max d.fallbackStep d.managedStep else d.pm.phaseStep

/-- The mode's demand (R358 to R360). -/
def Dev.modeStep (d : Dev) : Nat :=
  if d.pmMode = 2 then Nat.min 8 d.fixedStep
  else if d.pmMode = 1 then
    (if d.overCap || d.starvedComp then Nat.max d.phaseNow d.managedStep else d.phaseNow)
  else d.managedStep

/-- The step that the mode would demand if no budget held it back (R356). -/
def Dev.modeFree (d : Dev) : Nat :=
  if d.pmMode = 2 then Nat.min 8 d.fixedStep else if d.pmMode = 1 ∧ d.noHistory then d.fallbackStep else 0

/-- The demands of the sources other than the mode: their codes in PM_STATUS LIMIT, highest precedence first. -/
def Dev.sources (d : Dev) : List (Nat × Nat) :=
  (match d.pm.warn with
   | some w => [(6, w)]
   | none => []) ++
  (if d.pm.l2 then [(5, 8)] else []) ++ (if d.pm.emergency then [(4, 8)] else []) ++
  (if d.pm.safe then [(3, 6)] else []) ++ (if d.pm.l1 then [(2, d.pm.ceiling)] else []) ++
  (if d.pm.droopLeft ≠ 0 then [(1, Nat.min 8 (d.pm.sust + 1))] else [])

def maxStep (l : List (Nat × Nat)) : Nat := l.foldl (fun m e => Nat.max m e.2) 0

/-- The largest step that any source demands (R345). -/
def Dev.demand (d : Dev) : Nat := maxStep (d.sources ++ [(0, d.modeStep)])

/-- The trims of the layer in force, which the next change of step takes up (R423). -/
def Dev.trimsInForce (d : Dev) : List Int := (d.fw.layer.map (fun (l : CalLayer) => l.trims)).getD []

/-- The effective step changes; a new trim takes effect with it (R423). -/
def Dev.setStep (d : Dev) (s : Nat) : Dev :=
  if d.pm.step = s then d
  else { d with pm := { d.pm with step := s }, fw := { d.fw with trims := d.trimsInForce } }

/-- The AVSBus rail of VDD_CORE (R347). -/
def Dev.coreRail (d : Dev) : Option Nat :=
  ((List.range 8).find? (fun m =>
    let w := d.reg (Reg.PM_RAILm_CFG m)
    decide (Fld.PM_RAILm_CFG_EN.get w = 1 ∧ Fld.PM_RAILm_CFG_CORE.get w = 1))).map
    (fun m => d.fld (Reg.PM_RAILm_CFG m) Fld.PM_RAILm_CFG_AVS_RAIL)

/-- The set point of the next faster step, with the trims that it will take up. -/
def Dev.raiseMv (d : Dev) : Nat := ({ d with fw := { d.fw with trims := d.trimsInForce } } : Dev).vset (d.pm.step - 1)

/-- The VDD_CORE set point that is wanted: of the next faster step before that step takes effect, else of the effective step; a
lower one follows a slower step (R346). -/
def Dev.wantedMv (d : Dev) : Nat := if d.demand < d.pm.step then d.raiseMv else d.vset d.pm.step

/-- The set point goes to the regulator where it has changed. -/
def Dev.sendMv (d : Dev) : Dev :=
  let mv := d.wantedMv
  if d.pm.mv = some mv then d
  else
    let d := d.updPm (fun p => { p with mv := some mv })
    match d.coreRail with
    | some r => { d with out := .avsVoltage r mv :: d.out }
    | none => d

/-- PM_STATUS LIMIT and FIXED_LOST after a change of a demand or of the step. Where no source demands the effective step,
which code stands is free. -/
def Dev.noteStep (d : Dev) : Dev :=
  let lim := match (d.sources ++ [(0, d.modeStep)]).find? (fun (e : Nat × Nat) => e.2 = d.pm.step) with
    | some e => e.1
    | none => (Config.freeWord d.ctr 1).toNat % 7
  let lost := decide (d.pmMode = 2 ∧ d.fixedStep < maxStep d.sources ∧ d.fixedStep < d.pm.step)
  let d' := d.updPm (fun p => { p with limit := lim, lost := lost })
  if lost && !d.pm.lost then d'.raise Reg.PM_EVENT Fld.PM_EVENT_FIXED_LOST else d'

/-- A slower demand takes effect; a faster one waits for STEP_RAISE (R346). -/
def Dev.restep (d : Dev) : Dev := (if d.pm.step < d.demand then d.setStep d.demand else d).noteStep.sendMv

/-- STEP_RAISE: the regulator reports that the set point of the next faster step, which it was sent, has been reached. -/
def execStepRaise (s : State) := act s (fun d =>
  if d.demand < d.pm.step then
    (if d.pm.mv = some d.raiseMv then d.setStep (d.pm.step - 1) else d).restep
  else d)

/-! ### Prediction (R358, R359) -/

/-- The predicted compute power at a step from the activity of the last intervals. -/
def Dev.predictF (d : Dev) (s : Nat) : Nat :=
  d.pm.recent.foldl (fun acc i => i.comp.foldl (fun acc (e : Nat × Nat) => acc + d.scaleStep e.2 e.1 s) acc) 0 / Nat.max 1 d.pm.recent.length + d.leakF s

/-- The mean compute budget over the same intervals. -/
def Pm.meanBudget (p : Pm) : Int := p.recent.foldl (fun acc i => acc + i.budget) 0 / (Nat.max 1 p.recent.length : Nat)

/-- SUST_STEP: the fastest step whose prediction fits; step 8 where none does. -/
def Dev.sustStep (d : Dev) : Nat :=
  ((List.range 9).find? (fun s => decide ((d.predictF s : Int) ≤ d.pm.meanBudget))).getD 8

/-- P with one prediction exchanged for another stays at or below the cap. -/
def Dev.boostFits (d : Dev) (s : Nat) : Bool :=
  decide (d.pm.pF + (d.predictF s : Int) - (d.predictF d.pm.step : Int) ≤ (d.pm.capF : Int))

/-- Boost ends where it may not act or SUST_STEP is as fast; lost headroom takes it back to the fastest step that fits. -/
def Dev.trimBoost (d : Dev) : Dev :=
  match d.pm.boost with
  | none => d
  | some b =>
    if !d.boostAllowed ∨ d.pm.sust ≤ b then d.updPm (fun p => { p with boost := none })
    else if d.overCap then
      d.updPm (fun p => { p with boost := (List.range d.pm.sust).find? (fun s => decide (b < s) && d.boostFits s) })
    else d

/-- BOOST_STEP: one step faster while there is headroom. -/
def execBoostStep (s : State) := act s (fun d =>
  let t := d.managedStep
  if d.boostAllowed && decide (0 < t ∧ d.pm.step ≤ t) && d.boostFits (t - 1) && !d.starvedComp then
    (d.updPm (fun p => { p with boost := some (t - 1) })).restep
  else d)

/-- The demand of PHASE mode for the phases of all running gangs, as of a phase entry. -/
def Dev.phaseDemand (d : Dev) : Nat :=
  if d.noHistory then Nat.max d.fallbackStep d.managedStep
  else
    ((List.range 9).find? (fun s =>
      decide ((d.phases.foldl (fun acc h => acc + d.scaleStep (h.getD 0) 0 s) 0 : Nat) ≤ d.pm.bComp))).getD 8

/-- In PHASE mode the demand is formed anew. -/
def Dev.rephase (d : Dev) : Dev := if d.pmMode = 1 then d.updPm (fun p => { p with phaseStep := d.phaseDemand }) else d

/-- A gang enters a power phase (R179, R359). -/
def Dev.enterPhase (d : Dev) (l num : Nat) : Dev :=
  let d := (d.phaseExit l).updJob l (fun j => { j with phase := num, phaseOn := true, phSum := 0, phCnt := 0 })
  if d.pmMode = 1 then d.rephase.restep else d

/-! ### Estimate (R350, R351) -/

/-- The correction K in 1/4,096. -/
def Dev.corrK (d : Dev) : Nat := d.fld Reg.PM_EST_CORR Fld.PM_EST_CORR_K
def Dev.unmeasured (d : Dev) : Nat := d.fld Reg.PM_UNMEASURED Fld.PM_UNMEASURED_POWER

/-- What the activity counts weigh with the factory coefficients, in 0.01 W: per core, and for the other three domains. -/
def addPhase (d : Dev) (comp : List Nat) (j : Job) : Job :=
  if j.phaseOn ∧ j.state = .running then
    let x := j.members.foldl (fun acc n => acc + comp.getD n 0) 0 * d.corrK
    { j with phSum := j.phSum + d.scaleStep x d.pm.step 0, phCnt := j.phCnt + 1 }
  else j

/-- ESTIMATE. -/
def execEstimate (comp : List Nat) (mem links sense : Nat) (s : State) := act s (fun d =>
  let k := d.corrK
  let c := (comp.take 8).foldl (· + ·) 0
  let eF := (c + mem + links + sense + d.unmeasured) * k + Config.leak (d.vset d.pm.step) d.tj * k
  let pF : Int := (d.pm.baseF : Int) + eF - d.pm.lastF
  let cap : Int := d.pm.capF
  let d := { d with jobs := d.jobs.map (fun (e : Nat × Job) => (e.1, addPhase d comp e.2)) }
  let d := d.updPm (fun p => { p with
    sumF := p.sumF + eF, compF := p.compF + c * k, compBy := Tbl.set p.compBy p.step (Tbl.getD p.compBy p.step 0 + c * k), memF := p.memF + mem * k, linksF := p.linksF + links * k,
    senseF := p.senseF + sense * k, cnt := p.cnt + 1, pF := pF,
    allOver := p.allOver && decide (cap * 11 < pF * 10), allUnder := p.allUnder && decide (pF ≤ cap) })
  d.trimBoost.restep)

/-! ### Telemetry (R347 to R357) -/

/-- One rail's answer over AVSBus: its voltage in mV and current in 0.01 A, or none where the transaction failed. -/
def Dev.railEnabled (d : Dev) (m : Nat) : Bool := decide (d.fld (Reg.PM_RAILm_CFG m) Fld.PM_RAILm_CFG_EN = 1)
def Dev.suspect (d : Dev) (m : Nat) : Bool := bit (d.fld Reg.PM_RAIL_STATUS Fld.PM_RAIL_STATUS_SUSPECT) m

/-- A bit of a register goes to a value. -/
def Dev.putBit (d : Dev) (off i : Nat) (v : Bool) : Dev := d.setFld off ⟨i, 1⟩ (b2n v)

/-- Rail m's sample: readings, and its suspect state (R349). -/
def Dev.railSample (d : Dev) (m : Nat) (r : Option (Nat × Nat)) : Dev :=
  let old := Tbl.getD d.pm.rails m {}
  let en := d.railEnabled m
  let mv := (r.elim old.mv (·.1)) % pow2 16
  let cur := (r.elim old.cur (·.2)) % pow2 16
  let same := if !en || r.isNone then 0 else if mv = old.mv ∧ cur = old.cur then old.same + 1 else 1
  let cause := en && (r.isNone || decide (cur = 0) || decide (100 ≤ same))
  let good := if cause then 0 else old.good + 1
  let new : Rail := if en then { mv := mv, cur := cur, same := same, good := good } else { old with same := 0, good := good }
  let was := d.suspect m
  let d := d.updPm (fun p => { p with rails := Tbl.set p.rails m new })
  let d := if en && r.isSome then d.setReg (Reg.PM_RAILm_READ m) (BitVec.ofNat 32 (mv + cur * pow2 16)) else d
  if cause then
    let d := d.putBit Reg.PM_RAIL_STATUS m true
    if was then d else d.raise Reg.PM_EVENT Fld.PM_EVENT_RAIL_SUSPECT
  else if was && decide (100 ≤ good) then d.putBit Reg.PM_RAIL_STATUS m false
  else d

/-- A regulator fault is active. -/
def Dev.regFault (d : Dev) : Bool := decide (d.fld Reg.PM_RAIL_STATUS Fld.PM_RAIL_STATUS_FAULT ≠ 0)

/-- A break in the clear second before a handover: EMERGENCY or level 2 (R417). -/
def Dev.unclear (d : Dev) : Dev := { d with fw := { d.fw with clearAt := none } }

def Dev.enterEmergency (d : Dev) : Dev :=
  if d.pm.emergency then d
  else ((d.updPm (fun p => { p with emergency := true, underRun := 0 })).raise Reg.PM_EVENT Fld.PM_EVENT_EMERGENCY).unclear

/-- The interval just ended, as R357 counts it. -/
def Dev.countInterval (d : Dev) : Dev :=
  let d := d.updPm (fun p => { p with
    overRun := if p.cnt ≠ 0 && p.allOver then p.overRun + 1 else 0
    underRun := if p.cnt ≠ 0 && p.allUnder then p.underRun + 1 else 0
    allOver := true, allUnder := true })
  if 10 ≤ d.pm.overRun then d.enterEmergency
  else if d.pm.emergency && decide (100 ≤ d.pm.underRun) && !d.regFault then
    { d.updPm (fun p => { p with emergency := false }) with fw := { d.fw with clearAt := if d.pm.l2 then none else some d.ticks } }
  else d

/-- M in 10 µW: the rails and PM_UNMEASURED (R347). -/
def Dev.measured (d : Dev) : Nat :=
  (List.range 8).foldl (fun acc m =>
    let r := Tbl.getD d.pm.rails m {}
    if d.railEnabled m then acc + r.mv * r.cur else acc) (d.unmeasured * 1000)

/-- TELEMETRY_DISAGREE (R352). -/
def Dev.judge (d : Dev) (mF eF : Nat) : Dev :=
  let diff := if mF ≤ eF then eF - mF else mF - eF
  let bad := decide (Nat.max (d.pm.capF * 15) (500 * 4096 * 100) < diff * 100)
  let sus := decide (d.fld Reg.PM_RAIL_STATUS Fld.PM_RAIL_STATUS_SUSPECT ≠ 0)
  let badRun := if bad then d.pm.badRun + 1 else 0
  let goodRun := if bad || sus then 0 else d.pm.goodRun + 1
  let raise := !d.pm.disagree && (decide (20 ≤ badRun) || sus)
  let clear := d.pm.disagree && decide (20 ≤ goodRun)
  let d := d.updPm (fun p => { p with
    badRun := badRun, goodRun := goodRun, disagree := (p.disagree || raise) && !clear,
    armed := (p.armed || raise) && !clear })
  if raise then d.raise Reg.PM_EVENT Fld.PM_EVENT_TELEMETRY_DISAGREE else d

/-- K after an interval without disagreement (R350): K + (M / Ē − K) / 256, of M in 10 µW and of Ē as the sum of the estimates over
their number; which way it is rounded is free, and its value where Ē is 0. -/
def Dev.nextK (d : Dev) (m sumF cnt : Nat) : Nat :=
  let den := 256 * (sumF * 1000)
  let raw := if den = 0 then (Config.freeWord d.ctr 2).toNat
    else d.shown 3 (255 * d.corrK * (sumF * 1000) + 4096 * 4096 * m * cnt) den
  Nat.max 3277 (Nat.min 5120 raw)

/-- A power field of 16 bits; where the power is below 0 its value is free. -/
def Dev.budgetFld (d : Dev) (salt : Nat) (x : Int) : Nat :=
  if x < 0 then (Config.freeWord d.ctr salt).toNat % 65536 else d.shown salt x.toNat 4096 % 65536

/-- A power in 0.125 W, in 1/4,096 of 0.01 W. -/
def eighthF (x : Nat) : Nat := x * 51200

/-- The budgets of R354 and the memory bucket of R355. -/
def Dev.budgets (d : Dev) : Dev :=
  let p := d.pm
  let n := Nat.max 1 p.cnt
  let unit (x : Nat) : Int := (eighthF x : Nat)
  let fSense := unit (d.fld Reg.PM_FLOOR Fld.PM_FLOOR_SENSE)
  let fLinks := unit (d.fld Reg.PM_FLOOR Fld.PM_FLOOR_LINKS)
  let fMem := unit (d.fld Reg.PM_FLOOR Fld.PM_FLOOR_MEM)
  let cap : Int := p.capF
  let bSense := max fSense ((p.senseF / n : Nat) : Int)
  let bLinks := max fLinks ((p.linksF / n : Nat) : Int)
  let bMem := max fMem (min ((p.memF / n : Nat) : Int) (cap - bSense - bLinks - 800 * 4096))
  let bComp := cap - bSense - bLinks - bMem
  let d := d.updPm (fun p => { p with
    bComp := bComp, bMem := bMem, dMem := p.memF / n
    recent := ({ comp := p.compBy.map (fun (e : Nat × Nat) => (e.1, e.2 / n)), budget := bComp } :: p.recent).take 100 })
  let d := d.setReg Reg.PM_BUDGET_A (BitVec.ofNat 32 (d.budgetFld 4 bComp + d.budgetFld 5 bMem * pow2 16))
  d.setReg Reg.PM_BUDGET_B (BitVec.ofNat 32 (d.budgetFld 6 bLinks + d.budgetFld 7 bSense * pow2 16))

/-- The device bucket while memory is metered (R355, R357). -/
def Dev.meterMemory (d : Dev) : Dev :=
  let fMem : Nat := d.fld Reg.PM_FLOOR Fld.PM_FLOOR_MEM
  if d.pm.emergency then
    d.updPm (fun p => { p with metered := true, memRate := Config.memRate (eighthF fMem : Nat) })
  else if d.pm.bMem < (d.pm.dMem : Int) then
    d.updPm (fun p => { p with metered := true, memRate := Config.memRate p.bMem })
  else d.updPm (fun p => { p with metered := false })

/-- TELEMETRY_SAMPLE: the end of a 100 µs interval. -/
def execTelemetrySample (readings : List (Option (Nat × Nat))) (s : State) := act s (fun d =>
  let d := ((List.range 8).zip readings).foldl (fun d e => d.railSample e.1 e.2) d
  let d := d.countInterval
  let m := d.measured
  let mF := m * 4096 / 1000
  let eF := d.pm.sumF / Nat.max 1 d.pm.cnt
  let d := d.setReg Reg.PM_POWER
    (BitVec.ofNat 32 (d.shown 8 m 1000 % 65536 + d.shown 9 eF 4096 % 65536 * pow2 16))
  let d := d.judge mF eF
  let d := if d.pm.disagree then d else d.setFld Reg.PM_EST_CORR Fld.PM_EST_CORR_K (d.nextK m d.pm.sumF d.pm.cnt)
  let cap := d.fld Reg.PM_CAP Fld.PM_CAP_CAP
  let d := d.updPm (fun p => { p with
    lastF := eF, baseF := if p.disagree then Nat.max mF eF else mF, capF := eighthF cap,
    droopLeft := p.droopLeft - 1 })
  let d := d.budgets.meterMemory
  let d := d.updPm (fun p => { p with sumF := 0, compF := 0, compBy := [], memF := 0, linksF := 0, senseF := 0, cnt := 0 })
  (d.updPm (fun p => { p with sust := d.sustStep })).trimBoost.restep)

/-- CLEAR_FAULTS goes to the rails whose bits are set in `f`. -/
def Dev.clearFaults (d : Dev) (f : Nat) : Dev :=
  (List.range 8).foldl (fun d m =>
    if bit f m then { d with out := .clearFaults (d.fld (Reg.PM_RAILm_CFG m) Fld.PM_RAILm_CFG_PMBUS_ADDR) :: d.out } else d) d

/-- PMBUS_POLL: bit m of `faults` says that rail m's STATUS_WORD shows an overcurrent, undervoltage or temperature fault. -/
def execPmbusPoll (faults : BitVec 8) (s : State) := act s (fun d =>
  let f := (List.range 8).foldl (fun acc m =>
    if bit faults.toNat m && d.railEnabled m && decide (d.fld (Reg.PM_RAILm_CFG m) Fld.PM_RAILm_CFG_PMBUS_ADDR ≠ 0)
    then acc + pow2 m else acc) 0
  let d := d.setFld Reg.PM_RAIL_STATUS Fld.PM_RAIL_STATUS_FAULT f
  if f = 0 then d
  else (((d.clearFaults f).raise Reg.PM_EVENT Fld.PM_EVENT_REG_FAULT).enterEmergency).meterMemory.restep)

/-- TELEMETRY_SAFE_STEP: 1 s of continuous disagreement. -/
def execTelemetrySafeStep (s : State) := act s (fun d =>
  if d.pm.disagree && d.pm.armed then (d.updPm (fun p => { p with safe := true, armed := false })).restep else d)

/-- TELEM_ACK: a write of PM_TELEM_ACK by a port. -/
def execTelemAck (p : Port) (v : Word) (s : State) := act s (fun d =>
  if !d.holdsSem0 p then d.raise Reg.PM_EVENT Fld.PM_EVENT_WR_REJECT
  else if Fld.PM_TELEM_ACK_ACK.get v = 1 ∧ d.pm.safe then (d.updPm (fun p => { p with safe := false })).restep
  else d)

/-! ### Droop and supplies (R361, R362) -/

/-- ACLK pulses are stretched. -/
def Dev.stretching (d : Dev) : Bool := decide (d.pm.droop ≠ 0 ∨ d.pm.below ≠ 0)

/-- DROOP_TRIP of one of the sixteen detectors. -/
def execDroopTrip (det : Fin 16) (s : State) := act s (fun d =>
  if bit d.pm.droop.toNat det.val then d
  else (d.updPm (fun p => { p with droop := p.droop ||| BitVec.ofNat 16 (pow2 det.val) })).addReg Reg.PM_DROOP_COUNT 1)

/-- DROOP_DETECTOR_CLEAR: the detector has released, 32 pulses after its trip at the earliest. -/
def execDroopDetectorClear (det : Fin 16) (s : State) := act s (fun d =>
  d.updPm (fun p => { p with droop := p.droop &&& ~~~ BitVec.ofNat 16 (pow2 det.val) }))

/-- DROOP_PERSISTENCE: the demand stands for the next 10 ms, 100 intervals. -/
def execDroopPersistence (s : State) := act s (fun d =>
  (d.updPm (fun p => { p with droopLeft := 100 })).restep)

/-- SUPPLY_WARN: supply 0 VDD_CORE, 1 VDD_SOC, 2 VDD_SRAM, 3 VDD_AON crosses its WARN level. -/
def execSupplyWarn (rail : Fin 4) (s : State) := act s (fun d =>
  let d := d.updPm (fun p => { p with below := p.below ||| BitVec.ofNat 4 (pow2 rail.val), warn := some 8 })
  let d := (d.setReg64 Reg.PM_WARN_TIME_LO Reg.PM_WARN_TIME_HI d.time.toNat).addReg Reg.PM_WARN_COUNT 1
  (d.raise Reg.PM_EVENT Fld.PM_EVENT_WARN).restep)

/-- SUPPLY_RECOVER: back at or above 95% of the set point. -/
def execSupplyRecover (rail : Fin 4) (s : State) := act s (fun d =>
  d.updPm (fun p => { p with below := p.below &&& ~~~ BitVec.ofNat 4 (pow2 rail.val) }))

/-- WARN_RAMP: one step faster every 100 µs after the hold, until the demand no longer limits. -/
def execWarnRamp (s : State) := act s (fun d =>
  match d.pm.warn with
  | none => d
  | some w =>
    if d.pm.below ≠ 0 then d
    else
      let d := d.updPm (fun p => { p with warn := none })
      let rest := d.demand
      (if w - 1 ≤ rest then d else d.updPm (fun p => { p with warn := some (w - 1) })).restep)

/-! ### Heat (R363 to R365) -/

def Dev.t1 (d : Dev) : Int := (d.fld Reg.PM_THERM Fld.PM_THERM_T1 : Nat) * 8
def Dev.t2 (d : Dev) : Int := (d.fld Reg.PM_THERM Fld.PM_THERM_T2 : Nat) * 8

/-- The hottest reading and its sensor. -/
def hottest (l : List Int) : Nat × Int :=
  ((List.range l.length).zip l).foldl (fun acc e => if acc.2 < e.2 then e else acc) (0, l.headD 0)

/-- Enter level 1: boost ends, the ceiling is one step slower than the effective step. -/
def Dev.enterLevel1 (d : Dev) : Dev :=
  if d.pm.l1 then d
  else (d.updPm (fun p => { p with l1 := true, boost := none, ceiling := Nat.min 8 (p.step + 1) })).raise Reg.PM_EVENT Fld.PM_EVENT_THERM1

/-- THERMAL_SAMPLE: the twenty readings in 1/8 °C. -/
def execThermalSample (readings : List Int) (s : State) := act s (fun d =>
  let h := hottest (readings.take 20)
  let d := d.setReg Reg.PM_TJ (BitVec.ofNat 32 (unsgn 16 h.2 + h.1 * pow2 16))
  let d := if d.t1 ≤ d.tj then d.enterLevel1 else d
  let d :=
    if d.t2 ≤ d.tj ∧ d.pm.l2 = false then
      ((d.updPm (fun p => { p with l2 := true, boost := none })).raise Reg.PM_EVENT Fld.PM_EVENT_THERM2).unclear
    else if d.pm.l2 ∧ d.tj < d.t2 - 24 then
      { d.updPm (fun p => { p with l2 := false }) with fw := { d.fw with clearAt := if d.pm.emergency then none else some d.ticks } }
    else d
  d.restep)

/-- THERMAL_CEILING_STEP: every 10 ms at level 1. -/
def execThermalCeilingStep (s : State) := act s (fun d =>
  if !d.pm.l1 then d
  else if d.t1 ≤ d.tj then (d.updPm (fun p => { p with ceiling := Nat.min 8 (p.ceiling + 1) })).restep
  else if d.tj < d.t1 - 24 then
    let c := d.pm.ceiling - 1
    let rest := (d.updPm (fun p => { p with l1 := false })).demand
    (d.updPm (fun p => { p with ceiling := c, l1 := decide (rest < c) })).restep
  else d)

/-- Memory without power loses its contents, which are undefined until they are written, and with them its uncorrectable words
(R365, R366, R432). -/
def Dev.loseMemory (d : Dev) (a n : Nat) : Dev :=
  let d := d.lose a n
  { d with poison := d.poison.filter (fun x => decide (x < a ∨ a + n ≤ x)) }

/-- The core memories and the first `n` bytes of the Hamper lose their contents. -/
def Dev.loseSram (d : Dev) (n : Nat) : Dev := (d.loseMemory (coreBase 0) 0x8000000).loseMemory hamperBase n

/-- THERMAL_TRIP: a comparator trips at 120 °C; Compass stops, and TIME is lost (R381). -/
def execThermalTrip (s : State) := act s (fun d =>
  { d.loseSram 0x4000000 with
    tripped := true, jobs := [], cores := [], epoch := d.epoch + 1, time := Config.freeDword d.ctr 0, cps := {}
    regs := Tbl.set d.regs Reg.STC_ALIVE (Fld.STC_ALIVE_EN.put (d.reg Reg.STC_ALIVE) 0) })

/-! ### Wakes (R366) -/

/-- Something that wakes the device arrives; `deep`: it leaves DEEP_IDLE too. -/
def Dev.stir (d : Dev) (deep : Bool) : Dev :=
  if d.pm.idle = 1 ∨ (d.pm.idle = 2 ∧ deep) then d.updPm (fun p => { p with waking := true }) else d

/-! ### Pins -/

/-- PWR_WARN_N is low (R357, R362, R364). -/
def Dev.pwrWarnLow (d : Dev) : Bool := decide (d.pm.below ≠ 0) || d.pm.emergency || d.pm.l2

/-- THERMTRIP_N is low (R365). -/
def Dev.thermtripLow (d : Dev) : Bool := d.tripped

/-- CAP_STATE (R356). -/
def Dev.capState (d : Dev) : Nat :=
  if d.pm.emergency then 2
  else if d.pm.metered || decide (d.modeFree < d.modeStep) then 1 else 0

/-- PM_STATUS. -/
def Dev.pmStatus (d : Dev) : Word :=
  BitVec.ofNat 32 (d.pm.step + d.pm.sust * pow2 4 + d.capState * pow2 8 +
    (if d.pm.l2 then 2 else b2n d.pm.l1) * pow2 10 + b2n d.pm.warn.isSome * pow2 12 + b2n d.pm.safe * pow2 13 +
    b2n d.pm.disagree * pow2 14 + d.pm.limit * pow2 15 + d.pm.idle * pow2 19)

/-- PM_PHASE_DATA for a selector in the layout of PM_PHASE_SEL. -/
def Dev.phaseData (d : Dev) (sel : Word) : Word :=
  match Tbl.find? d.pm.hist (Fld.PM_PHASE_SEL_CONTEXT.get sel * 256 + Fld.PM_PHASE_SEL_PHASE.get sel) with
  | some h => BitVec.ofNat 32 (d.shown 10 h 4096 % 65536 + pow2 16)
  | none => 0

end Sys2Proof.Machine
end

