-- ==== Sys2Proof/Machine/Compass.lean ====
section
/-! DEFINITION. Compass (chapter 13): the time base, the PPS discipline, the outputs and the stamps. -/

namespace Sys2Proof.Machine

def Dev.updCps (d : Dev) (f : Cps → Cps) : Dev := { d with cps := f d.cps }
def Dev.setTime (d : Dev) (t : Nat) : Dev := { d with time := BitVec.ofNat 64 t }

/-- The fabric steers Compass (R374). -/
def Dev.follower (d : Dev) : Bool := decide (d.fld Reg.FAB_STATUS Fld.FAB_STATUS_PARENT_VALID = 1)

/-- The fabric holds Compass: the device follows a parent, or has followed one and has found no root since, so that SOURCE has
not taken effect again and RATE stays as it was (R374, R406). -/
def Dev.held (d : Dev) : Bool := d.follower || d.fab.orphan

/-- SOURCE is REF_PPS and in force. -/
def Dev.refPps (d : Dev) : Bool := decide (d.fld Reg.CPS_CTRL Fld.CPS_CTRL_SOURCE = 1) && !d.held

/-- ±500 ppm (R368). -/
def rateMax : Int := 21474836
def clampI (lo hi x : Int) : Int := max lo (min hi x)

/-- RATE in force. -/
def Dev.rate (d : Dev) : Int := (d.reg Reg.CPS_RATE).toInt
def Dev.setRate (d : Dev) (r : Int) : Dev := d.setReg Reg.CPS_RATE (BitVec.ofInt 32 (clampI (-rateMax) rateMax r))
def Dev.trim (d : Dev) : Int := (d.reg Reg.CPS_TRIM).toInt

/-! ### The time base (R368 to R371) -/

/-- What the slew adds at one TCLK edge. -/
def Dev.slewNow (d : Dev) : Int :=
  let s : Int := (d.fld Reg.CPS_CTRL Fld.CPS_CTRL_SLEW_PPM : Nat) * 42950
  clampI (-s) s d.cps.remain

def Dev.fsync (d : Dev) (n : Nat) : Fsync := Tbl.getD d.cps.fsync n {}
def Dev.updFsync (d : Dev) (n : Nat) (f : Fsync → Fsync) : Dev :=
  d.updCps (fun c => { c with fsync := Tbl.set c.fsync n (f (d.fsync n)) })

/-- START in force of an FSYNC output. -/
def Dev.fsStart (d : Dev) (n : Nat) : Int :=
  d.reg64 (Reg.CPS_FSYNCn_START_LO n) (Reg.CPS_FSYNCn_START_HI n) + (d.fsync n).era * (pow2 64 : Int)

/-- An FSYNC schedule moves with TIME, by as much. -/
def Dev.moveFsync (d : Dev) (x : Int) (n : Nat) : Dev :=
  let z := d.fsStart n + x
  (d.setReg64 (Reg.CPS_FSYNCn_START_LO n) (Reg.CPS_FSYNCn_START_HI n) (unsgn 64 z)).updFsync n (fun f =>
    { f with era := z / (pow2 64 : Int), endAt := ((f.endAt : Int) + x).toNat })

/-- A step of TIME by Δ ns (R371). -/
def Dev.stepTime (d : Dev) (x : Int) : Dev :=
  let t := d.time.toNat
  let d := d.setTime (unsgn 64 (t + x))
  let d := (List.range 24).foldl (fun d n => d.moveFsync ((d.time.toNat : Int) - t) n) d
  let d := d.updCps (fun c => { c with
    ppsNext := d.time.toNat / 1000000000 + 1 })
  (d.raise Reg.CPS_EVENT Fld.CPS_EVENT_STEPPED).addReg Reg.CPS_STEP_COUNT 1

/-- VALID (R369). -/
def Dev.timeValid (d : Dev) : Dev := d.raise Reg.CPS_STATUS Fld.CPS_STATUS_VALID

/-- One TCLK edge of the time base: the increment, and a step that waits for the edge. -/
def Dev.tickTime (d : Dev) : Dev :=
  let s := d.slewNow
  let sum : Int := d.cps.frac.toNat + 10 * (pow2 32 : Int) + d.rate + s
  let d := d.setTime (d.time.toNat + (sum / (pow2 32 : Int)).toNat)
  let d := d.updCps (fun c => { c with frac := BitVec.ofInt 32 sum, remain := c.remain - s })
  match d.cps.step with
  | none => d
  | some x => (d.stepTime x).timeValid.updCps (fun c => { c with step := none, remain := 0 })

/-- A CPS_ADJ command of a port: SEM0, SOURCE HOST and no fabric follower (R370). -/
def Dev.adjust (d : Dev) (p : Port) (f : Int → Dev) : Dev :=
  if !d.holdsSem0 p || d.held || decide (d.fld Reg.CPS_CTRL Fld.CPS_CTRL_SOURCE ≠ 0) then
    d.raise Reg.CPS_EVENT Fld.CPS_EVENT_WR_REJECT
  else f (sgn 64 ((d.regP p Reg.CPS_ADJ_LO).toNat + (d.regP p Reg.CPS_ADJ_HI).toNat * pow2 32))

/-- SLEW: the offset enters the remainder in place of what it held. -/
def execSlew (p : Port) (s : State) := act s (fun d =>
  d.adjust p (fun x => d.updCps (fun c => { c with remain := x * (pow2 32 : Int) })))

/-- STEP: at the next TCLK edge. -/
def execStep (p : Port) (s : State) := act s (fun d =>
  d.adjust p (fun x => d.updCps (fun c => { c with step := some (x + c.step.getD 0) })))

/-! ### Stamps (R378, R379) -/

def fifoDepth : Nat := 64

/-- Push a stamp into an input's FIFO; a full FIFO drops it. -/
def Dev.pushStamp (d : Dev) (e : Nat) (sub : Nat) (fall : Bool) : Dev :=
  let l := Tbl.getD d.cps.fifo e []
  if fifoDepth ≤ l.length then
    let n := Nat.min 65535 (d.fld (Reg.CPS_EVTe_INFO e) Fld.CPS_EVTe_INFO_OVF + 1)
    (d.setFld (Reg.CPS_EVTe_INFO e) Fld.CPS_EVTe_INFO_OVF n).raise Reg.CPS_EVENT Fld.CPS_EVENT_EVT_OVF
  else d.updCps (fun c => { c with fifo := Tbl.set c.fifo e (l ++ [{ time := d.time, sub := sub, fall := fall }]) })

/-- EDGE selects an edge: 0 rising, 1 falling, 2 both; what the unassigned 3 selects is free. -/
def edgeSelects (edge : Nat) (fall : Bool) : Bool :=
  if fall then edge = 1 || edge = 2 else edge = 0 || edge = 2

/-- EVENT_EDGE: a qualified edge on EVTe, `sub` VCLK after the last TCLK edge. -/
def execEventEdge (e : Fin 8) (sub : Fin 8) (fall : Bool) (s : State) := act s (fun d =>
  let d := d.stir false
  let w := d.reg (Reg.CPS_EVTe_CTRL e)
  let edge := Fld.CPS_EVTe_CTRL_EDGE.get w
  let sel := if edge = 3 then Config.freeBit d.ctr 12 else edgeSelects edge fall
  if Fld.CPS_EVTe_CTRL_EN.get w = 1 ∧ sel then d.pushStamp e sub fall
  else d)

/-- The EMPTY, FALL and SUB bits latched for a port by its last pop. -/
def stampInfo (x : Stamp) : Word := BitVec.ofNat 32 (x.sub + b2n x.fall * pow2 3)
def emptyInfo : Word := 16

/-- The latched half of a pair as a port reads it. -/
def Dev.latched (d : Dev) (p : Port) (lo : Nat) : Word := Tbl.getD (d.port p).latch lo 0

/-- STAMP_POP: a port reads CPS_EVTe_STAMP_LO; input 8 is REF_PPS_IN. -/
def execStampPop (p : Port) (e : Fin 9) (s : State) := act s (fun d =>
  match Tbl.getD d.cps.fifo e [] with
  | [] =>
    let old := Tbl.getD (d.port p).evtInfo e emptyInfo
    { d.updPort p (fun x => { x with evtInfo := Tbl.set x.evtInfo e (old ||| emptyInfo) }) with out := .regData p 0 :: d.out }
  | x :: t =>
    let d := d.updCps (fun c => { c with fifo := Tbl.set c.fifo e t })
    let d := d.updPort p (fun y => { y with
      latch := Tbl.set y.latch (Reg.CPS_EVTe_STAMP_LO e) ((x.time >>> 32).setWidth 32)
      evtInfo := Tbl.set y.evtInfo e (stampInfo x) })
    { d with out := .regData p (x.time.setWidth 32) :: d.out })

/-- CPS_EVTe_INFO as a port reads it. -/
def Dev.evtInfo (d : Dev) (p : Port) (e : Nat) : Word :=
  Tbl.getD (d.port p).evtInfo e emptyInfo |||
  BitVec.ofNat 32 ((Tbl.getD d.cps.fifo e []).length * pow2 5 + d.fld (Reg.CPS_EVTe_INFO e) Fld.CPS_EVTe_INFO_OVF * pow2 16)

/-! ### REF_PPS (R372, R373) -/

/-- CPS_STATUS STATE: 0 FREE, 1 ACQUIRE, 2 LOCKED, 3 HOLDOVER. -/
def Dev.ppsState (d : Dev) : Nat := d.fld Reg.CPS_STATUS Fld.CPS_STATUS_STATE
def Dev.setPps (d : Dev) (x : Nat) : Dev := d.setFld Reg.CPS_STATUS Fld.CPS_STATUS_STATE x

/-- sh(x, g) of R372. -/
def shI (x g : Int) : Int := if 0 ≤ g then x * (pow2 g.toNat : Int) else x / (pow2 (-g).toNat : Int)

def Dev.gp (d : Dev) : Int := sgn 5 (d.fld Reg.CPS_CTRL Fld.CPS_CTRL_GP)
def Dev.gi (d : Dev) : Int := sgn 5 (d.fld Reg.CPS_CTRL Fld.CPS_CTRL_GI)

/-- The error of an edge at TIME. -/
def ppsError (t : Nat) : Int := ((t + 500000000) % 1000000000 : Nat) - (500000000 : Int)

/-- The time in ns of an edge `sub` VCLK of 1.25 ns after the last TCLK edge (R378): how a fraction of a ns is rounded the spec
leaves open. -/
def Dev.edgeTime (d : Dev) (sub : Nat) : Nat :=
  d.time.toNat + sub * 5 / 4 + b2n (decide (sub % 4 ≠ 0) && Config.freeBit d.ctr 14)

def satI32 (x : Int) : Int := clampI (-2147483648) 2147483647 x

/-- Lock bookkeeping after an accepted edge with error `e` that caused no step (R372 step 5). -/
def Dev.judgeLock (d : Dev) (e : Int) : Dev :=
  let lim : Int := (d.fld Reg.CPS_LOCK_CFG Fld.CPS_LOCK_CFG_LOCK_NS : Nat)
  let run := if (e.natAbs : Int) ≤ lim then d.cps.lockRun + 1 else 0
  let d := d.updCps (fun c => { c with lockRun := run })
  if d.ppsState = 2 then
    if 10 * lim < (e.natAbs : Int) then
      ((d.updCps (fun c => { c with lockRun := 0 })).setPps 1).raise Reg.CPS_EVENT Fld.CPS_EVENT_UNLOCKED
    else d
  else if 10 ≤ run then ((d.setPps 2).raise Reg.CPS_EVENT Fld.CPS_EVENT_LOCKED).timeValid
  else d.setPps 1

/-- An accepted edge steers Compass: steps 2 to 5. -/
def Dev.steer (d : Dev) (sub : Nat) : Dev :=
  let e := ppsError (d.edgeTime sub)
  let d := d.setReg Reg.CPS_REF_ERR (BitVec.ofInt 32 (satI32 e))
  let d := d.updCps (fun c => { c with lastEdge := some d.ticks })
  let stepNs : Int := (d.fld Reg.CPS_LOCK_CFG Fld.CPS_LOCK_CFG_STEP_US : Nat) * 1000
  let d := if d.ppsState = 3 then d.setPps 1 else d
  if d.ppsState ≠ 2 ∧ d.fld Reg.CPS_CTRL Fld.CPS_CTRL_STEP_EN = 1 ∧ stepNs < (e.natAbs : Int) then
    (((d.stepTime (-e)).timeValid).updCps (fun c => { c with integ := 0, lockRun := 0 })).setPps 1
  else
    let i := clampI (-2147483648) 2147483647 (d.cps.integ + e)
    let d := d.updCps (fun c => { c with integ := i })
    (d.setRate (d.trim - shI e d.gp - shI i d.gi)).judgeLock e

/-- REF_PPS_EDGE: a rising edge of REF_PPS_IN. -/
def execRefPpsEdge (sub : Fin 8) (s : State) := act s (fun d =>
  if !d.refPps then d.pushStamp 8 sub false
  else
    let early := match d.cps.lastEdge with
      | some t => decide (d.ticks - t < 99900000)
      | none => false
    if early then d.raise Reg.CPS_EVENT Fld.CPS_EVENT_REF_GLITCH else (d.pushStamp 8 sub false).steer sub)

/-- REF_LOST: no accepted edge within 1.5 s of the last. -/
def execRefLost (s : State) := act s (fun d =>
  if d.refPps && d.cps.lastEdge.isSome && decide (d.ppsState ≠ 3) then
    (((d.setPps 3).updCps (fun c => { c with lockRun := 0 })).raise Reg.CPS_EVENT Fld.CPS_EVENT_REF_LOST).setRate
      (d.trim - shI d.cps.integ d.gi)
  else d)

/-- Compass after a change of its SOURCE or of the fabric's hold on it; where the fabric holds it, RATE stays. -/
def Dev.sourceChanged (d : Dev) : Dev :=
  let d := d.updCps (fun c => { c with integ := 0, lockRun := 0, lastEdge := none })
  if d.held then d.setPps 0
  else if d.refPps then d.setPps 1
  else (d.setPps 0).setRate d.trim

/-! ### Outputs (R375 to R377) -/

def Dev.fsPeriodic (d : Dev) (n : Nat) : Bool := decide (d.fld (Reg.CPS_FSYNCn_CTRL n) Fld.CPS_FSYNCn_CTRL_MODE = 1)

/-- TIME at which the next pulse of an output is due. -/
def Dev.fsDue (d : Dev) (n : Nat) : Int := d.fsStart n + ((d.fsync n).k * (d.reg (Reg.CPS_FSYNCn_PERIOD n)).toNat : Nat)

/-- FSYNC_PULSE_START: an activation that falls inside the pulse of an older schedule is skipped (R376). After PREPARE_OFF the
balls are in their reset state and no pulse is emitted (R432). -/
def execFsyncPulseStart (n : Fin 24) (s : State) := act s (fun d =>
  if !d.fsPeriodic n ∨ (d.time.toNat : Int) < d.fsDue n ∨ d.fw.stopping then d
  else if (d.fsync n).active then d.updFsync n (fun f => { f with k := f.k + 1 })
  else
    let e := (d.fsDue n + (d.reg (Reg.CPS_FSYNCn_WIDTH n)).toNat).toNat
    (d.updFsync n (fun f => { f with k := f.k + 1, active := true, endAt := e })).addReg (Reg.CPS_FSYNCn_COUNT n) 1)

/-- FSYNC_PULSE_END. -/
def execFsyncPulseEnd (n : Fin 24) (s : State) := act s (fun d =>
  if (d.fsync n).active ∧ (d.fsync n).endAt ≤ d.time.toNat then d.updFsync n (fun f => { f with active := false }) else d)

/-- A commit changes an FSYNC schedule, its START too where `start`: pulses due before the commit instant are not emitted
(R375). -/
def Dev.fsyncCommit (d : Dev) (n : Nat) (start : Bool) : Dev :=
  let per := Nat.max 1 (d.reg (Reg.CPS_FSYNCn_PERIOD n)).toNat
  let d := if start then d.updFsync n (fun f => { f with era := 0 }) else d
  d.updFsync n (fun f => { f with k := ceilDiv ((d.time.toNat : Int) - d.fsStart n).toNat per })

/-- The level of an FSYNC ball; none: high-impedance (R375, R381). -/
def Dev.fsyncPin (d : Dev) (n : Nat) : Option Bool :=
  if d.fw.stopping ∨ d.tripped ∨ (!d.fsPeriodic n ∧ !(d.fsync n).active) then none
  else some ((d.fsync n).active != decide (d.fld (Reg.CPS_FSYNCn_CTRL n) Fld.CPS_FSYNCn_CTRL_POL = 1))

def Dev.ppsEn (d : Dev) : Bool := decide (d.fld Reg.CPS_PPS_CTRL Fld.CPS_PPS_CTRL_EN = 1)

/-- PPS_OUT_PULSE: TIME has passed a whole second. -/
def execPpsOutPulse (s : State) := act s (fun d =>
  let sec := d.time.toNat / 1000000000
  if !d.ppsEn ∨ sec < d.cps.ppsNext ∨ d.fw.stopping then d
  else
    let near := match d.cps.ppsTick with
      | some t => decide (d.ticks - t < 50000000)
      | none => false
    if near then d.updCps (fun c => { c with ppsNext := sec + 1 })
    else d.updCps (fun c => { c with
      ppsNext := sec + 1, ppsTick := some d.ticks
      ppsOff := some (d.ticks + d.fld Reg.CPS_PPS_CTRL Fld.CPS_PPS_CTRL_WIDTH_MS * 100000), ppsTime := BitVec.ofNat 64 (sec * 1000000000), syncDue := true }))

/-- PPS_OUT is high: within the WIDTH_MS that stood at its rising edge. -/
def Dev.ppsPin (d : Dev) : Bool :=
  d.ppsEn && !d.fw.stopping && !d.tripped && d.cps.ppsOff.any (fun (t : Nat) => decide (d.ticks < t))

/-- CRC-16 over bytes: polynomial 0x1021, no reflection (Table 13.1). -/
def crc16Bits : Nat → Nat → Nat
  | 0, c => c
  | k + 1, c => crc16Bits k (if 32768 ≤ c then Nat.xor ((c * 2) % 65536) 0x1021 else c * 2)

def crc16 (l : List Byte) : Nat := l.foldl (fun c b => crc16Bits 8 (Nat.xor c (b.toNat * 256))) 0xFFFF

/-- The message of SYNC_OUT for the last pulse (Table 13.1). -/
def Dev.syncMessage (d : Dev) : List Byte :=
  let st := d.reg Reg.CPS_STATUS
  let locked := decide (d.ppsState = 2) ||
    (d.follower && decide (d.fld Reg.FAB_STATUS Fld.FAB_STATUS_SYNC_LOCKED = 1))
  let b2 := Fld.CPS_STATUS_VALID.get st + b2n locked * 2 + b2n (decide (d.ppsState = 3)) * 4 + b2n d.follower * 8 + 16
  let l := leBytes 2 0x5CA5 ++ leBytes 1 b2 ++ leBytes 1 d.cps.syncSeq ++ leBytes 8 d.cps.ppsTime.toNat ++
    leBytes 2 Config.uid.toNat
  l ++ leBytes 2 (crc16 l)

def Dev.syncEn (d : Dev) : Bool := decide (d.fld Reg.CPS_SYNC_CTRL Fld.CPS_SYNC_CTRL_EN = 1)

/-- The bit rate that BAUD selects; CHECK refuses the unassigned 3. -/
def Dev.syncBaud (d : Dev) : Nat := [115200, 1000000, 2000000].getD (d.fld Reg.CPS_SYNC_CTRL Fld.CPS_SYNC_CTRL_BAUD) 0

/-- The serial frames of a message: a start bit, 8 data bits with the lowest first, a stop bit. -/
def serialBits (l : List Byte) : List Bool :=
  l.foldr (fun (b : Byte) (acc : List Bool) => false :: (List.range 8).map (fun (i : Nat) => bit b.toNat i) ++ true :: acc) []

/-- The level of SYNC_OUT (R377, Table 13.2): high but for the frames of a message; low in reset and when it is not enabled. -/
def Dev.syncPin (d : Dev) : Bool :=
  d.syncEn && !d.fw.stopping && !d.tripped &&
  (match d.cps.syncMsg with
   | some (t, baud, l) => (serialBits l).getD ((d.ticks - t) * baud / 100000000) true
   | none => true)

/-- SYNC_OUT_MESSAGE: 500 µs after a PPS_OUT edge. -/
def execSyncOutMessage (s : State) := act s (fun d =>
  if d.cps.syncDue ∧ d.syncEn ∧ !d.fw.stopping then
    { d.updCps (fun c => { c with
        syncDue := false, syncSeq := (c.syncSeq + 1) % 256, syncMsg := some (d.ticks, d.syncBaud, d.syncMessage) }) with
      out := .syncOut d.syncMessage :: d.out }
  else d)

/-- CPS_STATUS and CPS_ADJ_REMAIN as they read. -/
def Dev.cpsStatus (d : Dev) : Word :=
  (d.reg Reg.CPS_STATUS &&& 7) ||| BitVec.ofNat 32 (b2n d.follower * 8 + b2n (decide (d.cps.remain ≠ 0)) * 16)
def Dev.adjRemain (d : Dev) : Word :=
  let x := d.cps.remain
  let q := x / (pow2 32 : Int)
  BitVec.ofInt 32 (satI32 (q + b2n (decide (x % (pow2 32 : Int) ≠ 0) && Config.freeBit d.ctr 11)))

end Sys2Proof.Machine
end

