-- ==== Sys2Proof/Machine/Fabric.lean ====
section
/-! DEFINITION. The fabric's links, discovery, routing and delivery (R383 to R395, R400 to R403). -/

namespace Sys2Proof.Machine

def Dev.updFab (d : Dev) (f : Fab → Fab) : Dev := { d with fab := f d.fab }
def Dev.fport (d : Dev) (p : Nat) : FPort := Tbl.getD d.fab.ports p {}
def Dev.updFport (d : Dev) (p : Nat) (f : FPort → FPort) : Dev :=
  d.updFab (fun x => { x with ports := Tbl.set x.ports p (f (d.fport p)) })

/-- FAB_PORTp_STATUS STATE: 0 DOWN, 1 TRAINING, 2 UP. -/
def Dev.linkState (d : Dev) (p : Nat) : Nat := d.fld (Reg.FAB_PORTp_STATUS p) Fld.FAB_PORTp_STATUS_STATE
def Dev.linkUp (d : Dev) (p : Nat) : Bool := decide (d.linkState p = 2)
def Dev.nbrValid (d : Dev) (p : Nat) : Bool := decide (d.fld (Reg.FAB_PORTp_STATUS p) Fld.FAB_PORTp_STATUS_NBR_VALID = 1)
def Dev.fabId (d : Dev) : Nat := d.fld Reg.FAB_CFG Fld.FAB_CFG_FAB_ID
def Dev.fabPrio (d : Dev) : Nat := d.fld Reg.FAB_CFG Fld.FAB_CFG_PRIORITY
def Dev.isolated (d : Dev) : Bool := decide (d.fld Reg.FAB_STATUS Fld.FAB_STATUS_ISOLATED = 1)
def Dev.isRoot (d : Dev) : Bool := decide (d.fld Reg.FAB_STATUS Fld.FAB_STATUS_IS_ROOT = 1)
def Dev.parent (d : Dev) : Nat := d.fld Reg.FAB_STATUS Fld.FAB_STATUS_PARENT
def Dev.dropPkt (d : Dev) : Dev := d.addReg Reg.FAB_DROPS 1
def Dev.fabEvent (d : Dev) (f : Fld) : Dev := d.raise Reg.FAB_EVENT f

/-! ### Packet types (Table 14.2) -/

def tyLink : Nat := 0x00
def tyLinkNak : Nat := 0x01
def tyWrite : Nat := 0x10
def tyFlag : Nat := 0x11
def tyAck : Nat := 0x12
def tyNak : Nat := 0x13
def tyTimeSync : Nat := 0x20
def tyTimeReq : Nat := 0x21
def tyTimeRsp : Nat := 0x22
def tyHello : Nat := 0x30
def tyPruned : Nat := 0x31
def tyJoin : Nat := 0x32

/-- Credits a packet costs (R389). -/
def pktCost (k : FPkt) : Nat := ceilDiv (32 + k.payload.length) 64

/-! ### Sending on a link (R385, R389) -/

/-- LACK: the last LSEQ accepted. -/
def FPort.lack (x : FPort) : Nat := (x.rx + 65535) % 65536

/-- A stamp in 1/8 ns: TIME and `sub` VCLK edges of 1.25 ns. -/
def Dev.stamp8 (d : Dev) (sub : Nat) : Nat := 8 * d.time.toNat + 10 * sub

/-- A time packet at its departure: TS and SUB of TIME_SYNC, t1 of TIME_REQ, t3 of TIME_RSP (R404, R405). -/
def Dev.stamped (d : Dev) (k : FPkt) (sub : Nat) : FPkt :=
  if k.ty = tyTimeSync then
    { k with payload := leBytes 8 d.time.toNat ++ leBytes 4 (wordAt k.payload 8 / 8 * 8 + sub) ++ k.payload.drop 12 }
  else if k.ty = tyTimeReq then { k with stamps := [d.stamp8 sub] }
  else if k.ty = tyTimeRsp then { k with stamps := k.stamps.take 1 ++ [d.stamp8 sub] }
  else k

/-- The VCLK edges from the last TCLK edge to a departure: those that the command gave which queued the packet, where it leaves
in that very command; else the spec leaves them open. -/
def Dev.departSub (d : Dev) (at_ : Option (Nat × Nat)) : Nat :=
  match at_ with
  | some (c, sub) => if c = d.ctr then sub else (Config.freeWord d.ctr 16).toNat % 8
  | none => (Config.freeWord d.ctr 16).toNat % 8

/-- A packet leaves on a port with LACK and the credits to be returned. -/
def Dev.emit (d : Dev) (p : Nat) (k : FPkt) (at_ : Option (Nat × Nat) := none) : Dev :=
  let k := d.stamped k (d.departSub at_)
  let x := d.fport p
  let c0 := Nat.min 1023 x.owe0
  let c1 := Nat.min 1023 x.owe1
  let d := d.updFport p (fun x => { x with owe0 := x.owe0 - c0, owe1 := x.owe1 - c1 })
  let k := { k with lack := x.lack, credReq := c0, credRsp := c1 }
  let d := if k.ty = tyTimeReq then d.updFport p (fun x => { x with t1 := k.stamps.head? }) else d
  { d with out := .fabric p k k.bytes :: d.out }

/-- A LINK or LINK_NAK packet: no LSEQ and no credits of its own. -/
def Dev.emitLink (d : Dev) (p ty : Nat) : Dev := d.emit p { ty := ty, src := d.fabId }

/-- A packet with an LSEQ leaves: it enters the replay buffer and takes its credits. -/
def Dev.emitSeq (d : Dev) (p : Nat) (e : TxEnt) : Dev :=
  let k := { e.k with lseq := (d.fport p).tx }
  let d := d.updFport p (fun x => { x with
    greeted := x.greeted || decide (k.ty = tyHello), tx := (x.tx + 1) % 65536, sent := x.sent ++ [(k, 0)],
    cr0 := if k.vc = 0 then x.cr0 - pktCost k else x.cr0, cr1 := if k.vc = 0 then x.cr1 else x.cr1 - pktCost k })
  d.emit p k e.at_

/-- Bytes in the replay buffer. -/
def FPort.replayBytes (x : FPort) : Nat := x.sent.foldl (fun n e => n + 32 + e.1.payload.length) 0

/-- The packet fits the replay buffer and the credits held. -/
def FPort.fits (x : FPort) (k : FPkt) : Bool :=
  decide (x.replayBytes + 32 + k.payload.length ≤ 65536) &&
    decide (pktCost k ≤ if k.vc = 0 then x.cr0 else x.cr1)

/-- The queues of VC 0: 0 the forwarded packets, 1 to 16 the send rings, 17 + g the branch queue of group g. -/
def FPort.vc0 (x : FPort) (i : Nat) : List TxEnt :=
  if i = 0 then x.fwd else if i ≤ 16 then Tbl.getD x.own (i - 1) [] else Tbl.getD x.branch (i - 17) []
def FPort.setVc0 (x : FPort) (i : Nat) (l : List TxEnt) : FPort :=
  if i = 0 then { x with fwd := l } else if i ≤ 16 then { x with own := Tbl.set x.own (i - 1) l }
  else { x with branch := Tbl.set x.branch (i - 17) l }

/-- The queues of VC 0 that hold packets, in round-robin order after the last served. -/
def FPort.turns (x : FPort) : List Nat :=
  let ks := ([0] ++ (Tbl.keys x.own).map (· + 1) ++ (Tbl.keys x.branch).map (· + 17)).filter (fun i => !(x.vc0 i).isEmpty)
  ks.filter (fun i => decide (x.turn < i)) ++ ks.filter (fun i => decide (i ≤ x.turn))

/-- Credits go back to the neighbour as a packet leaves the buffer it arrived in. -/
def Dev.owe (d : Dev) (src : Option Nat) (k : FPkt) : Dev :=
  match src with
  | none => d
  | some p => d.updFport p (fun x =>
      if k.vc = 0 then { x with owe0 := x.owe0 + pktCost k } else { x with owe1 := x.owe1 + pktCost k })

/-- VC 0: the first queue in turn. -/
def FPort.pick0 (x : FPort) : Option (TxEnt × FPort) :=
  match x.turns with
  | [] => none
  | i :: _ =>
    match x.vc0 i with
    | [] => none
    | e :: t => if x.fits e.k then some (e, { x.setVc0 i t with turn := i }) else none

/-- VC 1: HELLO, which goes first and needs no known neighbour, and the others. -/
def FPort.pick1 (x : FPort) (open_ : Bool) : Option (TxEnt × FPort) :=
  match x.hello, open_, x.vc1 with
  | e :: t, _, _ => if x.fits e.k then some (e, { x with hello := t }) else none
  | [], true, e :: t => if x.fits e.k then some (e, { x with vc1 := t }) else none
  | [], _, _ => none

/-- The next packet that a port may send, and the port without it (R389): time packets, VC 1, VC 0. Before the exchange of HELLO
with the neighbour only HELLO goes (R384). -/
def FPort.pick (x : FPort) (known : Bool) : Option (TxEnt × FPort) :=
  let open_ := known && x.greeted
  match open_, x.time with
  | true, e :: t => if x.fits e.k then some (e, { x with time := t }) else (x.pick1 open_).orElse (fun _ => x.pick0)
  | true, [] => (x.pick1 open_).orElse (fun _ => x.pick0)
  | false, _ => x.pick1 open_

/-- Send what a port may send. -/
def Dev.pumpLink (d : Dev) (p : Nat) : Nat → Dev
  | 0 => d
  | n + 1 =>
    if d.linkUp p then
      match (d.fport p).pick (d.nbrValid p) with
      | none => d
      | some (e, x) => (((d.updFport p (fun _ => x)).emitSeq p e).owe e.src e.k).pumpLink p n
    else d

/-- More packets than a port's queues can hold credits for. -/
def linkFuel : Nat := 700

/-! ### Multicast branches (R402) -/

def branchDepth : Nat := 16

/-- Packets enter the branch queues that have room, those of a group in order. -/
def enterBranches (ports : Tbl FPort) : List MWait → List MWait → Tbl FPort × List MWait
  | kept, [] => (ports, kept)
  | kept, w :: t =>
    let free := w.left.filter (fun p =>
      decide ((Tbl.getD (Tbl.getD ports p {}).branch w.k.group []).length < branchDepth) &&
      !kept.any (fun v => v.k.group = w.k.group && v.left.contains p))
    let ports := free.foldl (fun ps p =>
      let x := Tbl.getD ps p {}
      Tbl.set ps p { x with branch := Tbl.set x.branch w.k.group (Tbl.getD x.branch w.k.group [] ++ [{ k := w.k }]) }) ports
    enterBranches ports (kept ++ [{ w with left := w.left.filter (fun p => !free.contains p) }]) t

/-- Multicast packets move on; those that have entered every branch queue leave their input buffer. -/
def Dev.moveMcast (d : Dev) : Dev :=
  let r := enterBranches d.fab.ports [] d.fab.mwait
  let done := r.2.filter (fun w => w.left.isEmpty)
  let d := d.updFab (fun x => { x with ports := r.1, mwait := r.2.filter (fun w => !w.left.isEmpty) })
  done.foldl (fun d w => d.owe w.src w.k) d

/-- Every port sends what it may. -/
def Dev.pumpAll (d : Dev) : Dev :=
  let d := (List.range 4).foldl (fun d p => d.pumpLink p linkFuel) d.moveMcast
  (List.range 4).foldl (fun d p => d.pumpLink p linkFuel) d.moveMcast

/-! ### Routes (R393, R394) -/

/-- The port on which a unicast packet leaves. -/
def Dev.routeTo (d : Dev) (dst : Nat) : Option Nat :=
  let w := wordAt d.fab.route (4 * dst)
  let prim := bits w 0 2
  let alt := bits w 2 2
  if bit w 4 && d.linkUp prim then some prim
  else if bit w 5 && d.linkUp alt then some alt
  else none

/-- The multicast entry of a group. -/
def Dev.mcastEntry (d : Dev) (g : Nat) : Nat := wordAt d.fab.route (16384 + 8 * g)

/-- Queue a unicast packet on its route; `q` is its queue of VC 0. The answer says whether it had a route. A packet for this
device itself is delivered here, whatever its entry holds (R393). -/
def Dev.queueUni (d : Dev) (k : FPkt) (src : Option Nat) (q : Nat) : Dev × Bool :=
  if k.dst = d.fabId then (d.updFab (fun x => { x with loop := x.loop ++ [k] }), true)
  else match d.routeTo k.dst with
  | none => (d, false)
  | some p =>
    let e : TxEnt := { k := k, src := src }
    (d.updFport p (fun x => if k.vc = 0 then x.setVc0 q (x.vc0 q ++ [e]) else { x with vc1 := x.vc1 ++ [e] }), true)

/-- A reply of this device; without a route it is dropped. An isolated device sends none (R392). -/
def Dev.reply (d : Dev) (k : FPkt) : Dev :=
  if d.isolated then d
  else
    let r := d.queueUni { k with src := d.fabId, vc := 1, hops := 15 } none 0
    if r.2 then r.1 else d.dropPkt

def Dev.nak (d : Dev) (k : FPkt) (code : Nat) : Dev :=
  d.reply { ty := tyNak, dst := k.src, addr := code, eseq := k.eseq, ring := k.ring }

/-! ### Acknowledgements (R400) -/

def ackKey (k : FPkt) : Nat := k.src * 16 + k.ring

/-- Send the ACK of one (SRC, RING). -/
def Dev.sendAck (d : Dev) (key : Nat) : Dev :=
  match Tbl.find? d.fab.acks key with
  | none => d
  | some a =>
    let d := d.updFab (fun x => { x with acks := Tbl.set x.acks key { a with n := 0, last := some d.ticks } })
    d.reply { ty := tyAck, dst := key / 16, ring := key % 16, eseq := a.eseq }

/-- An ACK may go: 16 packets wait for it, or 1 µs has passed since the last. -/
def AckSt.ready (a : AckSt) (ticks : Nat) : Bool :=
  decide (a.n ≠ 0) && (decide (16 ≤ a.n) || (match a.last with
    | some t => decide (t + 100 ≤ ticks)
    | none => true))

/-- Note that packets up to `eseq` are accepted, and send the ACK when it may go. -/
def Dev.ackUpTo (d : Dev) (k : FPkt) (eseq : Nat) : Dev :=
  let key := ackKey k
  let a := Tbl.getD d.fab.acks key { eseq := eseq }
  let a := { a with eseq := eseq, n := a.n + 1 }
  let d := d.updFab (fun x => { x with acks := Tbl.set x.acks key a })
  if a.ready d.ticks then d.sendAck key else d

/-! ### Local delivery (R395, R400, R401) -/

/-- All bytes of [a, a + n) lie in one enabled inbound window. -/
def Dev.inWindow (d : Dev) (a n : Nat) : Bool :=
  (List.range 8).any (fun w =>
    let b := d.reg64 (Reg.FAB_WINw_BASE_LO w) (Reg.FAB_WINw_BASE_HI w) % pow2 48
    let z := d.fld (Reg.FAB_WINw_SIZE w) Fld.FAB_WINw_SIZE_PAGES * 4096
    decide (d.fld (Reg.FAB_WINw_BASE_HI w) Fld.FAB_WINw_BASE_HI_EN = 1) && decide (b ≤ a ∧ a + n ≤ b + z))

/-- A host event flag that the fabric may set. -/
def Dev.fabFlagOk (d : Dev) (f : Nat) : Bool :=
  let b := d.fld Reg.FAB_RFLAG_BASE Fld.FAB_RFLAG_BASE_FLAG
  decide (b ≤ f ∧ f < b + d.fld Reg.FAB_RFLAG_COUNT Fld.FAB_RFLAG_COUNT_COUNT ∧ f < nFlags)

/-- Apply a WRITE or FLAG, or say that it is refused. -/
def Dev.applyPkt (d : Dev) (k : FPkt) : Option Dev :=
  if k.ty = tyFlag then
    let f := k.addr % pow2 18
    if d.fabFlagOk f then some ((d.release agentFab).setFlag f) else none
  else if d.inWindow k.addr k.payload.length then some ((d.store agentFab k.addr k.payload).release agentFab)
  else none

/-- A multicast WRITE or FLAG for this device. -/
def Dev.deliverMcast (d : Dev) (k : FPkt) : Dev := (d.applyPkt k).getD (d.addReg Reg.FAB_IN_REFUSED 1)

/-- A unicast WRITE or FLAG for this device: the sequence check of R400, then its effect. -/
def Dev.deliverReq (d : Dev) (k : FPkt) : Dev :=
  let key := ackKey k
  let verdict : Nat := match Tbl.find? d.fab.expected key with
    | none => 0
    | some e => if k.start ∨ k.eseq = e then 0 else if (e + 65536 - k.eseq) % 65536 ≤ 32768 then 1 else 2
  if verdict = 1 then d.ackUpTo k ((Tbl.getD d.fab.expected key 0 + 65535) % 65536)
  else if verdict = 2 then d.nak k 2
  else match d.applyPkt k with
    | none => (d.addReg Reg.FAB_IN_REFUSED 1).nak k (if k.ty = tyFlag then 4 else 1)
    | some d =>
      (d.updFab (fun x => { x with expected := Tbl.set x.expected key ((k.eseq + 1) % 65536) })).ackUpTo k k.eseq

/-! ### Send rings' share in acknowledgements (R398, R399) -/

def Dev.sring (d : Dev) (r : Nat) : SRing := Tbl.getD d.fab.rings r {}
def Dev.updSring (d : Dev) (r : Nat) (f : SRing → SRing) : Dev :=
  d.updFab (fun x => { x with rings := Tbl.set x.rings r (f (d.sring r)) })

/-- FAB_SRINGr_STATUS STATE: 0 OFF, 1 RUN, 2 STOPPED. -/
def Dev.ringRuns (d : Dev) (r : Nat) : Bool := decide (d.fld (Reg.FAB_SRINGr_STATUS r) Fld.FAB_SRINGr_STATUS_STATE = 1)

/-- Device address of descriptor `c`. -/
def Dev.ringAddr (d : Dev) (r c : Nat) : Nat :=
  d.reg64 (Reg.FAB_SRINGr_BASE_LO r) (Reg.FAB_SRINGr_BASE_HI r) +
    64 * (c % pow2 (d.fld (Reg.FAB_SRINGr_CTRL r) Fld.FAB_SRINGr_CTRL_LOG2))

/-- A ring stops with a failing status. -/
def Dev.ringStop (d : Dev) (r status : Nat) : Dev :=
  let d := d.setFld (Reg.FAB_SRINGr_STATUS r) Fld.FAB_SRINGr_STATUS_STATE 2
  let d := d.setFld (Reg.FAB_SRINGr_STATUS r) Fld.FAB_SRINGr_STATUS_LAST_ERR status
  (d.updSring r (fun x => { x with descs := [], unacked := [], periods := 0 })).fabEvent Fld.FAB_EVENT_RING_ERR

/-- A descriptor fails: its STATUS, and its ring stops (R399). -/
def Dev.ringFail (d : Dev) (r off status : Nat) : Dev :=
  ((d.store agentFab (off + 0x28) [BitVec.ofNat 8 status]).release agentFab).ringStop r status

/-- Send packets of a ring again, unless the device is isolated (R392). -/
def Dev.resendRing (d : Dev) (r : Nat) (only : FPkt → Bool) : Dev :=
  if d.isolated then d
  else (((d.sring r).unacked.filter (fun e => only e.2)).foldl (fun d e => (d.queueUni e.2 none (r + 1)).1) d).pumpAll

/-- An ACK for this device. -/
def Dev.deliverAck (d : Dev) (k : FPkt) : Dev :=
  let r := k.ring
  let x := d.sring r
  let rest := x.unacked.filter (fun e => !(decide (e.2.dst = k.src) && decide ((k.eseq + 65536 - e.2.eseq) % 65536 < 32768)))
  if rest.length = x.unacked.length then d else d.updSring r (fun x => { x with unacked := rest, periods := 0 })

/-- The descriptor whose packet a NAK is about. -/
def SRing.about (x : SRing) (k : FPkt) (any : Bool) : Option SDesc :=
  match x.unacked.find? (fun e => e.2.eseq = k.eseq && (any || decide (e.2.dst = k.src))) with
  | none => none
  | some e => x.descs.find? (fun s => s.idx = e.1)

/-- A NAK for this device. -/
def Dev.deliverNak (d : Dev) (k : FPkt) : Dev :=
  let r := k.ring
  let code := k.addr % 256
  if code = 2 then d.resendRing r (fun q => decide (q.dst = k.src))
  else match (d.sring r).about k (decide (code = 3)) with
    | none => d
    | some s => if code = 3 then d.ringFail r s.off 6 else if code = 1 ∨ code = 4 then d.ringFail r s.off 5 else d

/-- PRUNED and JOIN for this device (R403). -/
def Dev.deliverPruned (d : Dev) (k : FPkt) : Dev :=
  let off := Reg.FAB_MCAST_PRUNED (k.group / 32)
  let d := d.setReg off (d.reg off ||| BitVec.ofNat 32 (pow2 (k.group % 32)))
  (d.updFab (fun x => { x with pruner := Tbl.set x.pruner k.group k.src })).fabEvent Fld.FAB_EVENT_PRUNED

def Dev.deliverJoin (d : Dev) (k : FPkt) (p : Nat) : Dev :=
  d.updFab (fun x => { x with
    pruned := x.pruned.filter (fun (e : Nat × List Nat) =>
      !(decide (e.1 / 4 = k.group) && (decide (e.1 % 4 = p) || e.2.contains k.src))) })

/-- A unicast packet for this device, arrived on port `p`. -/
def Dev.deliver (d : Dev) (p : Nat) (k : FPkt) : Dev :=
  if k.ty = tyWrite ∨ k.ty = tyFlag then d.deliverReq k
  else if k.ty = tyAck then d.deliverAck k
  else if k.ty = tyNak then d.deliverNak k
  else if k.ty = tyPruned then d.deliverPruned k
  else if k.ty = tyJoin then d.deliverJoin k p
  else d

/-- The packets of this device for itself are delivered, and what they bring about. -/
def Dev.loopBack (d : Dev) : Nat → Dev
  | 0 => d
  | n + 1 =>
    match d.fab.loop with
    | [] => d
    | k :: t => ((d.updFab (fun x => { x with loop := t })).deliver 0 k).loopBack n

/-- More packets than a descriptor has. -/
def loopFuel : Nat := 200000

/-- What is queued goes: to this device itself, and out of the ports. -/
def Dev.settle (d : Dev) : Dev := (d.loopBack loopFuel).pumpAll

/-- ACKs that have waited for their microsecond, at a TCLK edge. -/
def Dev.ackTick (d : Dev) : Dev :=
  let due := (d.fab.acks.filter (fun (e : Nat × AckSt) => e.2.ready d.ticks)).map (fun (e : Nat × AckSt) => e.1)
  if due = [] then d else (due.foldl (fun d k => d.sendAck k) d).settle

/-! ### Arrival (R385, R388, R392, R394) -/

/-- A multicast packet goes to the branches of its group and, with LOCAL, to this device. -/
def Dev.mcastIn (d : Dev) (src : Option Nat) (k : FPkt) (ring : Option (Nat × Nat)) : Dev :=
  let w := d.mcastEntry k.group
  if !bit w 6 then (d.owe src k).dropPkt
  else
    let d := if bit w 4 then d.deliverMcast k else d
    let outs := (List.range 4).filter (fun p =>
      bit w p && decide (src ≠ some p) && d.linkUp p && (Tbl.find? d.fab.pruned (k.group * 4 + p)).isNone)
    if outs = [] then d.owe src k
    else if src.isSome ∧ k.hops = 0 then (d.owe src k).dropPkt
    else
      let k' := if src.isSome then { k with hops := k.hops - 1 } else k
      d.updFab (fun x => { x with mwait := x.mwait ++ [{ k := k', src := src, left := outs, ring := ring }] })

/-- A packet of the routed types that the link has accepted. -/
def Dev.arrive (d : Dev) (p : Nat) (k : FPkt) : Dev :=
  let d := d.stir true
  if d.isolated then d.owe (some p) k
  else if k.resv then (d.owe (some p) k).dropPkt
  else if k.mcast then (d.mcastIn (some p) k none).pumpAll
  else if k.dst = d.fabId then ((d.owe (some p) k).deliver p k).settle
  else if k.hops = 0 then (d.owe (some p) k).dropPkt
  else
    let r := d.queueUni { k with hops := k.hops - 1 } (some p) 0
    if r.2 then r.1.pumpAll else (((d.owe (some p) k).dropPkt).nak k 3).settle

/-- Every header acknowledges packets and returns credits. -/
def Dev.linkHead (d : Dev) (p : Nat) (k : FPkt) : Dev :=
  d.updFport p (fun x => { x with
    sent := x.sent.dropWhile (fun e => decide ((k.lack + 65536 - e.1.lseq) % 65536 < 32768)),
    cr0 := x.cr0 + k.credReq, cr1 := x.cr1 + k.credRsp })

/-- A packet with an LSEQ arrives: accepted in order only; a gap is answered with LINK_NAK (R385). -/
def Dev.receive (d : Dev) (p : Nat) (k : FPkt) (f : Dev → Dev) : Dev :=
  if d.linkUp p = false then d
  else
    let d := d.linkHead p k
    let rx := (d.fport p).rx
    if k.lseq % 65536 = rx then
      (f (d.updFport p (fun x => { x with rx := (x.rx + 1) % 65536 }))).pumpLink p linkFuel
    else if (k.lseq + 65536 - rx) % 65536 < 32768 then (d.emitLink p tyLinkNak).pumpLink p linkFuel
    else d.pumpLink p linkFuel

/-! ### Election (R390 to R392) -/

/-- Root A is better than root B (R391): priority, then the lower UID. -/
def betterRoot (a b : Nat × Nat × Nat) : Bool := decide (b.1 < a.1 ∨ (a.1 = b.1 ∧ a.2.1 < b.2.1))

/-- A neighbour's advertisement counts: a root, not this device, not one forgotten. -/
def Dev.validAdvert (d : Dev) (a : Advert) : Bool :=
  decide (a.rootPrio ≠ 0 ∧ a.rootUid ≠ Config.uid.toNat ∧ a.dist < 15) &&
  (match Tbl.find? d.fab.forgot a.rootUid with
   | some b => decide (b < a.beacon)
   | none => true)

/-- The advertisements of the ports that are UP. -/
def Dev.adverts (d : Dev) : List (Nat × Advert) :=
  (List.range 4).filterMap (fun p =>
    if d.linkUp p then
      match (d.fport p).advert with
      | some a => if d.validAdvert a then some (p, a) else none
      | none => none
    else none)

/-- The device stops or begins to follow the fabric's time (R374, R406). SOURCE takes effect again when it becomes root; a
follower that finds no root keeps its RATE. -/
def Dev.followChange (d : Dev) (was : Bool) : Dev :=
  let orphan := !d.follower && !d.isRoot && (was || d.fab.orphan)
  if d.follower = was ∧ orphan = d.fab.orphan then d
  else
    let d := d.updFab (fun x => { x with
      orphan := orphan, synced := false, lockRun := 0, integ := 0, rootValid := false, rootLocked := false })
    (d.setFld Reg.FAB_STATUS Fld.FAB_STATUS_SYNC_LOCKED 0).sourceChanged

/-- The election over what the device knows. -/
def Dev.elect (d : Dev) : Dev :=
  let was := d.follower
  let l : List (Nat × Advert) := d.adverts
  let self : List (Nat × Nat × Nat) := if d.fabPrio ≠ 0 then [(d.fabPrio, Config.uid.toNat, d.fabId)] else []
  let cands : List (Nat × Nat × Nat) := self ++ l.map (fun e => (e.2.rootPrio, e.2.rootUid, e.2.rootId))
  let best : Option (Nat × Nat × Nat) := cands.foldl (fun (b : Option (Nat × Nat × Nat)) c => match b with
    | none => some c
    | some x => if betterRoot c x then some c else some x) none
  let changed := decide (best.map (fun x => x.2.1) ≠ d.fab.root.map (fun x => x.2.1))
  let d := d.updFab (fun x => { x with root := best })
  let d := match best with
    | none => d.setReg Reg.FAB_STATUS (d.reg Reg.FAB_STATUS &&& (Fld.FAB_STATUS_ISOLATED.mask ||| Fld.FAB_STATUS_SYNC_LOCKED.mask))
    | some x =>
      let mine : List (Nat × Advert) := l.filter (fun e => decide (e.2.rootUid = x.2.1))
      let own := decide (self = [x])
      let dist := mine.foldl (fun m (e : Nat × Advert) => Nat.min m e.2.dist) 15
      let par := ((mine.find? (fun (e : Nat × Advert) => decide (e.2.dist = dist))).elim 0 (·.1))
      let d := d.setFld Reg.FAB_STATUS Fld.FAB_STATUS_ROOT_ID x.2.2
      let d := d.setFld Reg.FAB_STATUS Fld.FAB_STATUS_IS_ROOT (b2n own)
      let d := d.setFld Reg.FAB_STATUS Fld.FAB_STATUS_ROOT_DIST (if own then 0 else dist + 1)
      let d := d.setFld Reg.FAB_STATUS Fld.FAB_STATUS_PARENT (if own then 0 else par)
      let d := d.setFld Reg.FAB_STATUS Fld.FAB_STATUS_PARENT_VALID (b2n (!own))
      let high := mine.foldl (fun m (e : Nat × Advert) => Nat.max m e.2.beacon) (if changed then 0 else d.fab.beacon)
      if own then d else d.updFab (fun f => { f with beacon := high })
  let d := d.setReg64 Reg.FAB_ROOT_UID_LO Reg.FAB_ROOT_UID_HI (best.elim 0 (fun x => x.2.1))
  let d := if changed then d.fabEvent Fld.FAB_EVENT_ROOT_CHANGE else d
  d.followChange was

/-- The HELLO payload (Table 14.3). -/
def Dev.helloPayload (d : Dev) : List Byte :=
  let r := d.fab.root.getD (0, 0, 0)
  let dist := d.fld Reg.FAB_STATUS Fld.FAB_STATUS_ROOT_DIST
  leBytes 4 (d.fabId + d.fabPrio * pow2 12) ++ leBytes 8 Config.uid.toNat ++
    leBytes 4 (r.2.2 + r.1 * pow2 12 + dist * pow2 20) ++ leBytes 8 r.2.1 ++ leBytes 4 d.fab.beacon ++ leBytes 4 0

/-- The device isolates itself (R392): the packets that it would send, but those of the link and of time, are dropped. -/
def Dev.isolate (d : Dev) : Dev :=
  let d := d.setFld Reg.FAB_STATUS Fld.FAB_STATUS_ISOLATED 1
  let gone (x : FPort) : List TxEnt :=
    x.vc1 ++ x.fwd ++ x.own.foldr (fun (e : Nat × List TxEnt) acc => e.2 ++ acc) [] ++
      x.branch.foldr (fun (e : Nat × List TxEnt) acc => e.2 ++ acc) []
  let l := d.fab.ports.foldr (fun (e : Nat × FPort) acc => gone e.2 ++ acc) []
  let waits := d.fab.mwait
  let d := d.updFab (fun x => { x with
    ports := x.ports.map (fun (e : Nat × FPort) => (e.1, { e.2 with vc1 := [], fwd := [], own := [], branch := [] })), mwait := [], loop := [] })
  waits.foldl (fun d w => d.owe w.src w.k) (l.foldl (fun d e => d.owe e.src e.k) d)

/-- HELLO: the neighbour's identity, a conflict with it, and its advertisement. -/
def execHello (p : Fin 4) (k : FPkt) (s : State) := act s (fun d =>
  d.receive p k (fun d =>
    let w (i : Nat) := wordAt k.payload i
    let d := d.owe (some p.val) k
    if k.resv ∨ bits (w 0) 20 12 ≠ 0 ∨ bits (w 0xC) 24 8 ≠ 0 ∨ w 0x1C ≠ 0 then d.dropPkt
    else
      let id := bits (w 0) 0 12
      let uid := w 4 + w 8 * pow2 32
      let d := d.setFld (Reg.FAB_PORTp_STATUS p) Fld.FAB_PORTp_STATUS_NBR_ID id
      let d := d.setFld (Reg.FAB_PORTp_STATUS p) Fld.FAB_PORTp_STATUS_NBR_VALID 1
      let d :=
        if id = d.fabId ∧ uid ≠ Config.uid.toNat then
          let d := d.fabEvent Fld.FAB_EVENT_ID_CONFLICT
          if uid < Config.uid.toNat then d.isolate else d
        else d
      let a : Advert := { rootId := bits (w 0xC) 0 12, rootPrio := bits (w 0xC) 12 8, dist := bits (w 0xC) 20 4,
                          rootUid := w 0x10 + w 0x14 * pow2 32, beacon := w 0x18 }
      (d.updFport p (fun x => { x with advert := some a })).elect))

/-- A HELLO is queued on a port that is UP. -/
def Dev.queueHello (d : Dev) (p : Nat) : Dev :=
  if d.linkUp p then
    d.updFport p (fun x => { x with hello := x.hello ++ [{ k := { ty := tyHello, vc := 1, src := d.fabId, payload := d.helloPayload } }] })
  else d

/-- HELLO_SEND: every UP port. -/
def execHelloSend (s : State) := act s (fun d => ((List.range 4).foldl Dev.queueHello d).pumpAll)

/-- BEACON: the root's count. -/
def execBeacon (s : State) := act s (fun d =>
  if d.isRoot then d.updFab (fun x => { x with beacon := (x.beacon + 1) % pow2 32 }) else d)

/-- ROOT_TIMEOUT: no increase of BEACON for 1 ms. -/
def execRootTimeout (s : State) := act s (fun d =>
  match d.fab.root with
  | some r =>
    if d.isRoot then d
    else (d.updFab (fun x => { x with forgot := Tbl.set x.forgot r.2.1 x.beacon })).elect
  | none => d)

/-! ### Ports (R384 to R386) -/

/-- Packets of a lost port that had not left go another way or are dropped; what was sent and not acknowledged is lost. -/
def Dev.rerouteQueues (d : Dev) (p : Nat) : Dev :=
  let x := d.fport p
  let again (d : Dev) (e : TxEnt) (q : Nat) : Dev :=
    let r := d.queueUni e.k e.src q
    if r.2 then r.1
    else
      let d := (d.owe e.src e.k).dropPkt
      if e.src.isSome then d.nak e.k 3 else d
  let d := d.updFport p (fun _ => {})
  let d := x.vc1.foldl (fun d e => again d e 0) d
  let d := x.fwd.foldl (fun d e => again d e 0) d
  let d := x.own.foldl (fun d q => q.2.foldl (fun d e => again d e (q.1 + 1)) d) d
  d.updFab (fun f => { f with mwait := f.mwait.map (fun w => { w with left := w.left.filter (fun q => decide (q ≠ p)) }) })

/-- A port leaves UP or TRAINING. -/
def Dev.takeDown (d : Dev) (p : Nat) : Dev :=
  let d := if d.linkUp p then d.fabEvent Fld.FAB_EVENT_LINK_DOWN else d
  ((d.setReg (Reg.FAB_PORTp_STATUS p) 0).rerouteQueues p).elect.settle

/-- A loss (R386). -/
def Dev.linkLoss (d : Dev) (p : Nat) : Dev :=
  (d.addReg (Reg.FAB_PORTp_DOWNS p) 1).takeDown p

def Dev.portEnabled (d : Dev) (p : Nat) : Bool := bit (d.fld Reg.FAB_CFG Fld.FAB_CFG_PORT_EN) p

/-- FAB_PORT_TRAIN: 1 ms after a loss. -/
def execFabPortTrain (p : Fin 4) (s : State) := act s (fun d =>
  if d.linkState p = 0 ∧ d.portEnabled p ∧ d.fw.stopping = false then d.setReg (Reg.FAB_PORTp_STATUS p) 1 else d)

/-- FAB_PORT_UP: training ends at a width (0 ×1, 1 ×2, 2 ×4) and rate (1: 32 GT/s), and the exchange of HELLO begins (R384). -/
def execFabPortUp (p : Fin 4) (width : Fin 3) (gen : Bool) (s : State) := act s (fun d =>
  if d.linkState p = 1 then
    let d := d.setReg (Reg.FAB_PORTp_STATUS p) (BitVec.ofNat 32 (2 + width.val * 4 + b2n gen * 16))
    (((d.updFport p (fun _ => {})).fabEvent Fld.FAB_EVENT_LINK_UP).queueHello p).pumpLink p linkFuel
  else d)

/-- FAB_PORT_DOWN: no valid packet for 10 µs. -/
def execFabPortDown (p : Fin 4) (s : State) := act s (fun d => if d.linkUp p then d.linkLoss p else d)

/-- LINK_KEEPALIVE: nothing sent for 1 µs. -/
def execLinkKeepalive (p : Fin 4) (s : State) := act s (fun d => if d.linkUp p then d.emitLink p tyLink else d)

/-- LINK. -/
def execLink (p : Fin 4) (k : FPkt) (s : State) := act s (fun d =>
  if !d.linkUp p then d else if k.resv then d.dropPkt else (d.linkHead p k).pumpAll)

/-- The packets of the replay buffer go out again; the port is lost where one of them has been resent 8 times. -/
def Dev.resendLink (d : Dev) (p : Nat) : Dev :=
  let l := (d.fport p).sent
  if l.any (fun e => decide (8 ≤ e.2)) then d.linkLoss p
  else
    let d := l.foldl (fun d e => d.emit p e.1) d
    (d.updFport p (fun x => { x with sent := x.sent.map (fun e => (e.1, e.2 + 1)) })).addReg (Reg.FAB_PORTp_RETRIES p) l.length

/-- LINK_NAK: resend from LACK + 1. -/
def execLinkNak (p : Fin 4) (k : FPkt) (s : State) := act s (fun d =>
  if !d.linkUp p then d else if k.resv then d.dropPkt else ((d.linkHead p k).resendLink p).pumpAll)

/-- PACKET_CRC_ERROR: a packet with a CRC error (none), or with an unassigned TYPE, which is dropped and counts as traffic
(R387). -/
def execPacketCrcError (p : Fin 4) (k : Option FPkt) (s : State) := act s (fun d =>
  if d.linkUp p = false then d
  else match k with
    | none => (d.addReg (Reg.FAB_PORTp_CRC_ERR p) 1).emitLink p tyLinkNak
    | some k => d.receive p k (fun d => ((d.stir true).owe (some p.val) k).dropPkt))

/-! ### Routed packets -/

def execWrite (p : Fin 4) (k : FPkt) (s : State) := act s (fun d =>
  d.receive p k (fun d => d.arrive p { k with ty := tyWrite, vc := 0 }))
def execFlag (p : Fin 4) (k : FPkt) (s : State) := act s (fun d =>
  d.receive p k (fun d => d.arrive p { k with ty := tyFlag, vc := 0 }))
def execAck (p : Fin 4) (k : FPkt) (s : State) := act s (fun d =>
  d.receive p k (fun d => d.arrive p { k with ty := tyAck, vc := 1 }))
def execNak (p : Fin 4) (k : FPkt) (s : State) := act s (fun d =>
  d.receive p k (fun d => d.arrive p { k with ty := tyNak, vc := 1 }))
def execPruned (p : Fin 4) (k : FPkt) (s : State) := act s (fun d =>
  d.receive p k (fun d => d.arrive p { k with ty := tyPruned, vc := 1 }))
def execJoin (p : Fin 4) (k : FPkt) (s : State) := act s (fun d =>
  d.receive p k (fun d => d.arrive p { k with ty := tyJoin, vc := 1 }))

/-- PRUNE: a packet of the group has waited T_US for the branch; `told` are the devices reached only through it. -/
def execPrune (group : Fin 256) (port : Fin 4) (told : List (Fin 4096)) (s : State) := act s (fun d =>
  let waits := d.fab.mwait.any (fun w => w.k.group = group.val && w.left.contains port.val)
  if !waits ∨ bit (d.mcastEntry group) 5 = false then d
  else
    let d := d.updFab (fun x => { x with
      pruned := Tbl.set x.pruned (group.val * 4 + port.val) (told.map (·.val))
      mwait := x.mwait.map (fun w =>
        if w.k.group = group.val then { w with left := w.left.filter (fun q => decide (q ≠ port.val)) } else w) })
    let d := told.foldl (fun d t => d.reply { ty := tyPruned, dst := t.val, group := group.val }) d
    (d.fabEvent Fld.FAB_EVENT_PRUNE_DONE).settle)

/-- A port may write an owner-checked register of an object: the object has no other owner (R288). -/
def Dev.mayWrite (d : Dev) (p : Port) (cls idx : Nat) : Bool := decide (d.owner cls idx ≠ some p.other)

/-- MCAST_JOIN: a port writes FAB_MCAST_JOIN (R403); ignored from a LOST port (R310). -/
def execMcastJoin (p : Port) (group : Fin 256) (s : State) := act s (fun d =>
  if (d.port p).lost then d
  else if d.mayWrite p 8 0 = false then d.fabEvent Fld.FAB_EVENT_WR_REJECT
  else match Tbl.find? d.fab.pruner group with
    | none => d
    | some src =>
      let off := Reg.FAB_MCAST_PRUNED (group.val / 32)
      let d := d.setReg off (d.reg off &&& ~~~ BitVec.ofNat 32 (pow2 (group.val % 32)))
      let d := d.updFab (fun x => { x with pruner := Tbl.erase x.pruner group })
      (d.reply { ty := tyJoin, dst := src, group := group.val }).settle)

end Sys2Proof.Machine
end

