-- ==== Sys2Proof/Machine/Isp.lean ====
section
/-! DEFINITION. The image pipes: the parameter block, the stages and the statistics of one frame (R240 to R242, R254 to R258),
and the resizing of R274. -/

namespace Sys2Proof.Machine

/-! ### Structures in memory -/

/-- A field of a structure: the word at byte offset `o`, its bits from `lo`. -/
def fldAt (l : List Byte) (o lo w : Nat) : Nat := bits (wordAt l o) lo w

/-- A 48-bit address in two words. -/
def addrAt (l : List Byte) (o : Nat) : Nat := wordAt l o + fldAt l (o + 4) 0 16 * pow2 32

/-- A structure's bits outside its fields, each (byte offset, low bit, width), are not all 0. -/
def strayBits (l : List Byte) (words : Nat) (fs : List (Nat × Nat × Nat)) : Bool :=
  (List.range words).any (fun (i : Nat) =>
    decide ((fs.filter (fun (f : Nat × Nat × Nat) => f.1 = 4 * i)).foldl
      (fun (x : Nat) (f : Nat × Nat × Nat) => x - bits x f.2.1 f.2.2 * pow2 f.2.1) (wordAt l (4 * i)) ≠ 0))

/-- A 48-bit address field. -/
def addrField (o : Nat) : List (Nat × Nat × Nat) := [(o, 0, 32), (o + 4, 0, 16)]

/-! ### The parameter block (Table 8.6) -/

/-- The fields of the parameter block below the tone curve. -/
def paramFields : List (Nat × Nat × Nat) :=
  [(0, 0, 4), (0, 8, 3), (4, 0, 32), (8, 0, 32), (0xC, 0, 32), (0x40, 0, 32), (0x44, 0, 32), (0x48, 0, 16), (0x50, 0, 29)] ++
  addrField 0x54 ++
  [(0x60, 0, 3), (0x64, 0, 32), (0x68, 0, 16), (0x80, 0, 5), (0x80, 8, 5), (0x84, 0, 20), (0x88, 0, 20), (0xA0, 0, 8),
   (0xA4, 0, 20), (0xB0, 0, 24), (0xC0, 0, 32), (0xC4, 0, 32), (0xC8, 0, 32), (0xCC, 0, 32), (0xD0, 0, 32), (0xD4, 0, 32),
   (0xE0, 0, 4), (0xE0, 8, 2), (0xE0, 16, 4), (0xE4, 0, 32), (0xE8, 0, 32), (0xEC, 0, 20)] ++
  (List.range 32).map (fun i => (0x100 + 4 * i, 0, 32))

/-- Bytes of lens-shading gains: 33 × 25 grid points of four channels. -/
def lscBytes : Nat := 6600

/-- A reserved bit of the block is not 0. -/
def paramStray (b : List Byte) : Bool :=
  strayBits b 128 paramFields ||
  (List.range 512).any (fun (i : Nat) => decide (byteAt b (0x200 + 2 * i + 1) / 16 ≠ 0)) ||
  (b.drop (0x600 + lscBytes)).any (fun (x : Byte) => decide (x ≠ 0))

def prmCropX (b : List Byte) : Nat := fldAt b 4 0 16
def prmCropY (b : List Byte) : Nat := fldAt b 4 16 16
def prmCropW (b : List Byte) : Nat := fldAt b 8 0 16
def prmCropH (b : List Byte) : Nat := fldAt b 8 16 16
def prmOutW (b : List Byte) : Nat := fldAt b 0xC 0 16
def prmOutH (b : List Byte) : Nat := fldAt b 0xC 16 16
def prmOfmt (b : List Byte) : Nat := fldAt b 0 8 3
def prmR1 (b : List Byte) : Nat := fldAt b 0x80 0 5
def prmR2 (b : List Byte) : Nat := fldAt b 0x80 8 5

/-- The block is invalid for a frame of this size and number of exposures (R242; ranges of Table 8.6). -/
def paramBad (b : List Byte) (w h exps : Nat) : Bool :=
  paramStray b || decide (3 < prmOfmt b) ||
  decide (prmCropW b = 0 ∨ prmCropH b = 0 ∨ w < prmCropX b + prmCropW b ∨ h < prmCropY b + prmCropH b) ||
  decide (prmOutW b = 0 ∨ prmOutH b = 0 ∨ prmCropW b < prmOutW b ∨ prmCropH b < prmOutH b ∨
    prmOutW b < ceilDiv (prmCropW b) 16 ∨ prmOutH b < ceilDiv (prmCropH b) 16) ||
  decide (prmOfmt b = 1 ∧ (prmOutW b % 2 ≠ 0 ∨ prmOutH b % 2 ≠ 0)) ||
  decide (prmR2 b < prmR1 b ∨ 16 < prmR1 b ∨ 16 < prmR2 b) || decide (4096 < fldAt b 0x50 16 13) ||
  decide (fldAt b 0x54 0 2 ≠ 0) || decide (12 < fldAt b 0xE0 0 4) || decide (8 < fldAt b 0xE0 16 4) ||
  decide (Nat.max 1 exps ≤ fldAt b 0xE0 8 2)

/-- Bytes of an output line, and of an output picture, at a line stride: the planes follow one another. -/
def outLine (b : List Byte) : Nat := if prmOfmt b = 2 then 3 * prmOutW b else prmOutW b
def outPlanes (b : List Byte) : Nat :=
  match prmOfmt b with
  | 1 => prmOutH b + prmOutH b / 2
  | 3 => 3 * prmOutH b
  | _ => prmOutH b

/-- The output does not fit a buffer (R249). -/
def outTooBig (b : List Byte) (stride bytes : Nat) : Bool :=
  decide (stride < outLine b ∨ bytes < stride * outPlanes b)

/-! ### Stages 1 to 5 -/

/-- An image of single codes, of RGB codes. -/
abbrev Img := List (List Nat)
abbrev Rgb := Nat × Nat × Nat
abbrev RgbImg := List (List Rgb)

def Img.px (m : Img) (x y : Nat) : Nat := (m.getD y []).getD x 0
def RgbImg.px (m : RgbImg) (x y : Nat) : Rgb := (m.getD y []).getD x (0, 0, 0)

/-- An image from a function of the site. -/
def tabulate {α : Type} (w h : Nat) (f : Nat → Nat → α) : List (List α) :=
  (List.range h).map (fun (y : Nat) => (List.range w).map (fun (x : Nat) => f x y))

/-- The largest 20-bit code. -/
def max20 : Nat := 1048575

/-- Channel of a site: 0 R, 1 G, 2 B, 3 IR. -/
def siteCh (b : List Byte) (x y : Nat) : Nat :=
  let c := fldAt b 0x60 0 3
  if 4 ≤ c then Config.irSite (c - 4) x y
  else
    let rx := c % 2
    let ry := c / 2
    if x % 2 = rx ∧ y % 2 = ry then 0 else if x % 2 ≠ rx ∧ y % 2 ≠ ry then 2 else 1

/-- Black level of a site: G sites of the R sites' lines are Gr (all G sites in RGB-IR patterns). -/
def blackLevel (b : List Byte) (x y : Nat) : Nat :=
  let c := fldAt b 0x60 0 3
  match siteCh b x y with
  | 0 => fldAt b 0x40 0 16
  | 1 => if 4 ≤ c ∨ y % 2 = c / 2 then fldAt b 0x40 16 16 else fldAt b 0x44 0 16
  | 2 => fldAt b 0x44 16 16
  | _ => fldAt b 0x48 0 16

/-- Stage 1. -/
def stage1 (b : List Byte) (w h : Nat) (m : Img) : Img := tabulate w h (fun x y => m.px x y - 16 * blackLevel b x y)

/-- Stage 2, with its static defect list: with DPC_THRESH 0 only listed sites are replaced. -/
def stage2 (b : List Byte) (list : List (Nat × Nat)) (w h : Nat) (m : Img) : Img :=
  let t := fldAt b 0x50 0 16
  if fldAt b 0 0 1 = 0 then m
  else tabulate w h (fun x y => if t = 0 ∧ list.contains (x, y) = false then m.px x y else (Config.ispDefect (16 * t) list m x y).toNat)

/-- The last grid line at or before a site of `n`, of grid lines 0 to `k`. -/
def gridAt (n k x : Nat) : Nat := ((List.range k).filter (fun g => decide (g * n / k ≤ x))).getLastD 0

/-- A lens-shading gain of the grid. -/
def lscGain (b : List Byte) (gx gy ch : Nat) : Nat :=
  let o := 0x600 + 2 * (4 * (33 * gy + gx) + ch)
  byteAt b o + 256 * byteAt b (o + 1)

/-- An exact quotient, or one of the two whole numbers next to it: which of them is fixed per stepping. -/
def nearQuot (n : Int) (d : Nat) : Int := n / d + (if n % d = 0 then 0 else if Config.ispUp n d then 1 else 0)

/-- Bilinear interpolation between four gains with 12 fraction bits, at `dx` of `wx` and `dy` of `wy` (R242). -/
def interpGain (g00 g10 g01 g11 dx wx dy wy : Nat) : Nat :=
  (nearQuot (((g00 * (wx - dx) + g10 * dx) * (wy - dy) + (g01 * (wx - dx) + g11 * dx) * dy : Nat) : Int) (wx * wy)).toNat

/-- The gain of a site: interpolated between the grid points around it. DEDUCED: the interpolation is exact but for the last
fraction bit, whose rounding the spec does not give. -/
def siteGain (b : List Byte) (w h x y : Nat) : Nat :=
  let ch := siteCh b x y
  let gx := gridAt w 32 x
  let gy := gridAt h 24 y
  let x0 := gx * w / 32
  let y0 := gy * h / 24
  interpGain (lscGain b gx gy ch) (lscGain b (gx + 1) gy ch) (lscGain b gx (gy + 1) ch) (lscGain b (gx + 1) (gy + 1) ch)
    (x - x0) ((gx + 1) * w / 32 - x0) (y - y0) ((gy + 1) * h / 24 - y0)

/-- Stage 3. -/
def stage3 (b : List Byte) (w h full : Nat) (m : Img) : Img :=
  if fldAt b 0 1 1 = 0 then m
  else tabulate w h (fun x y => Nat.min max20 ((m.px x y * siteGain b w full x y + 2048) / 4096))

/-- Stage 4. -/
def stage4 (b : List Byte) (w h : Nat) (m : Img) : RgbImg :=
  let ir := wordAt b 0x64 + fldAt b 0x68 0 16 * pow2 32
  tabulate w h (fun x y =>
    ((Config.ispDemosaic (fldAt b 0x60 0 3) ir m 0 x y).toNat, (Config.ispDemosaic (fldAt b 0x60 0 3) ir m 1 x y).toNat,
     (Config.ispDemosaic (fldAt b 0x60 0 3) ir m 2 x y).toNat))

/-- A right shift, rounded half up. -/
def shrHalfUp (x k : Nat) : Nat := if k = 0 then x else (x + pow2 (k - 1)) / pow2 k

/-- Stage 5 for one value. -/
def mergeVal (b : List Byte) : List Nat → Nat
  | [e0] => e0
  | [e0, e1] => shrHalfUp (if e0 < fldAt b 0x84 0 20 then e0 else e1 * pow2 (prmR1 b)) (prmR1 b)
  | e0 :: e1 :: e2 :: _ =>
    shrHalfUp (if e0 < fldAt b 0x84 0 20 then e0 else if e1 < fldAt b 0x88 0 20 then e1 * pow2 (prmR1 b)
      else e2 * pow2 (prmR2 b)) (prmR2 b)
  | [] => 0

def stage5 (b : List Byte) (w h : Nat) (ms : List RgbImg) : RgbImg :=
  tabulate w h (fun x y =>
    (mergeVal b (ms.map (fun (m : RgbImg) => (m.px x y).1)), mergeVal b (ms.map (fun (m : RgbImg) => (m.px x y).2.1)),
     mergeVal b (ms.map (fun (m : RgbImg) => (m.px x y).2.2))))

/-! ### Stages 6 to 11 -/

/-- Stage 6 with a reference; none: the stage is off. -/
def stage6 (b : List Byte) (w h : Nat) (ref : Option (List Byte)) (m : RgbImg) : RgbImg :=
  match ref with
  | none => m
  | some r =>
    let f (ch x y : Nat) : Nat := (Config.ispTnr (fldAt b 0xA0 0 8) (fldAt b 0xA4 0 20) r m ch x y).toNat
    tabulate w h (fun x y => (f 0 x y, f 1 x y, f 2 x y))

/-- Stage 7. -/
def stage7 (b : List Byte) (w h : Nat) (m : RgbImg) : RgbImg :=
  if fldAt b 0 3 1 = 0 then m
  else
    let f (ch x y old : Nat) : Nat :=
      let k := fldAt b 0xB0 (8 * ch) 8
      if k = 0 then old else (Config.ispSnr k m ch x y).toNat
    tabulate w h (fun x y => (f 0 x y (m.px x y).1, f 1 x y (m.px x y).2.1, f 2 x y (m.px x y).2.2))

/-- n / d in FP32, rounded to nearest even. -/
def fp32Div (n d : Nat) : Val := Fmt.fp32.decode (FpFmt.convRat Fmt.fp32.fp .rne false false n d 0).code

/-- An FP16 field of the block. -/
def fp16At (b : List Byte) (o : Nat) : Val := Fmt.fp16.decode (byteAt b o + 256 * byteAt b (o + 1))

/-- A colour back to a 20-bit code. -/
def toCode20 (v : Val) : Nat :=
  match (v.mul (Val.ofInt (max20 : Int))) with
  | .nan => Config.ispNan 0
  | .inf neg => if neg then 0 else max20
  | .fin neg m e =>
    let r := if 0 ≤ e then m * pow2 e.toNat else roundDiv .rne m (pow2 (-e).toNat)
    if neg then 0 else Nat.min max20 r

/-- Stage 8 for one pixel: ((c0 × R + c1 × G) + c2 × B) + offset, each step in FP32. -/
def ccmPx (b : List Byte) (p : Rgb) : Rgb :=
  let r := fp32Div p.1 max20
  let g := fp32Div p.2.1 max20
  let bl := fp32Div p.2.2 max20
  let row (j : Nat) : Nat :=
    let c (i : Nat) : Val := fp16At b (0xC0 + 2 * (3 * j + i))
    toCode20 (((((c 0).fmul r).fadd ((c 1).fmul g)).fadd ((c 2).fmul bl)).fadd (fp16At b (0xD2 + 2 * j)))
  (row 0, row 1, row 2)

/-- Stage 9 for one value. -/
def toneVal (b : List Byte) (x : Nat) : Nat :=
  let t (i : Nat) : Nat := (byteAt b (0x200 + 2 * i) + 256 * byteAt b (0x201 + 2 * i)) % 4096
  let i := x / 2048
  let f := x % 2048
  (t i * (2048 - f) + t (Nat.min (i + 1) 511) * f + 1024) / 2048

def tonePx (b : List Byte) (p : Rgb) : Rgb := (toneVal b p.1, toneVal b p.2.1, toneVal b p.2.2)

/-- The source coordinate of an output coordinate in 1/65,536 pixel (R274). -/
def srcCoord (n out x : Nat) : Nat :=
  let step := n * 65536 / out
  Nat.min (x * step + step / 2 - 32768) ((n - 1) * 65536)

/-- One output value of the resizing of R274 over `a`, of `cw` × `ch` values. -/
def resizeVal (a : Nat → Nat → Nat) (cw ch ow oh : Nat) (nearest : Bool) (x y : Nat) : Nat :=
  let sx := srcCoord cw ow x
  let sy := srcCoord ch oh y
  if nearest then a (Nat.min ((sx + 32768) / 65536) (cw - 1)) (Nat.min ((sy + 32768) / 65536) (ch - 1))
  else
    let x0 := sx / 65536
    let y0 := sy / 65536
    let fx := sx / 256 % 256
    let fy := sy / 256 % 256
    let x1 := Nat.min (x0 + 1) (cw - 1)
    let y1 := Nat.min (y0 + 1) (ch - 1)
    let top := a x0 y0 * (256 - fx) + a x1 y0 * fx
    let bot := a x0 y1 * (256 - fx) + a x1 y1 * fx
    (top * (256 - fy) + bot * fy + 32768) / 65536

/-- Stage 10. -/
def stage10 (b : List Byte) (m : RgbImg) : RgbImg :=
  let v (f : Rgb → Nat) (x y : Nat) : Nat :=
    resizeVal (fun x y => f (m.px (prmCropX b + x) (prmCropY b + y))) (prmCropW b) (prmCropH b) (prmOutW b) (prmOutH b) false x y
  tabulate (prmOutW b) (prmOutH b) (fun x y => (v (fun p => p.1) x y, v (fun p => p.2.1) x y, v (fun p => p.2.2) x y))

/-- A whole number as an 8-bit code. -/
def byte8 (x : Int) : Byte := BitVec.ofNat 8 (Nat.min 255 x.toNat)

/-- A 12-bit value as 8 bits: 4,095 is 255. -/
def to8 (v : Nat) : Byte := byte8 (nearQuot ((255 * v : Nat) : Int) 4095)

/-- Luma of a 12-bit colour by BT.709, full range: 0.2126 R + 0.7152 G + 0.0722 B. -/
def luma8 (p : Rgb) : Byte := byte8 (nearQuot ((255 * (2126 * p.1 + 7152 * p.2.1 + 722 * p.2.2) : Nat) : Int) (10000 * 4095))

/-- Chroma of a 12-bit colour by BT.709, full range, around 128: Cb = (B − Y) / 1.8556 or, with `v`, Cr = (R − Y) / 1.5748, as
a numerator and a denominator. -/
def chroma (v : Bool) (p : Rgb) : Int × Nat :=
  let r : Int := p.1
  let g : Int := p.2.1
  let b : Int := p.2.2
  if v then (255 * (7874 * r - 7152 * g - 722 * b) + 128 * 15748 * 4095, 15748 * 4095)
  else (255 * (9278 * b - 2126 * r - 7152 * g) + 128 * 18556 * 4095, 18556 * 4095)

/-- The chroma of four pixels: a value between theirs, of which the spec does not say more. -/
def chroma8 (v : Bool) (q : List Rgb) : Byte :=
  let lo := (q.map (fun p => (chroma v p).1 / (chroma v p).2)).foldl min 256
  let hi := (q.map (fun p => -(-(chroma v p).1 / (chroma v p).2))).foldl max 0
  byte8 (lo + (Config.ispChroma v q : Int) % (hi - lo + 1))

/-- Stage 11: the lines of the output, each with its place in the buffer in lines, the planes one after another. -/
def stage11 (b : List Byte) (m : RgbImg) : List (Nat × List Byte) :=
  let w := prmOutW b
  let h := prmOutH b
  let plane (k : Nat) (f : Rgb → Byte) : List (Nat × List Byte) :=
    (List.range h).map (fun (y : Nat) => (k * h + y, (m.getD y []).map f))
  match prmOfmt b with
  | 1 =>
    plane 0 luma8 ++
    (List.range (h / 2)).map (fun (y : Nat) =>
      (h + y, (List.range (w / 2)).foldr (fun (x : Nat) (acc : List Byte) =>
        let q := [m.px (2 * x) (2 * y), m.px (2 * x + 1) (2 * y), m.px (2 * x) (2 * y + 1), m.px (2 * x + 1) (2 * y + 1)]
        chroma8 false q :: chroma8 true q :: acc) []))
  | 2 => (List.range h).map (fun (y : Nat) =>
      (y, (m.getD y []).foldr (fun (p : Rgb) (acc : List Byte) =>
        to8 p.1 :: to8 p.2.1 :: to8 p.2.2 :: acc) []))
  | 3 => plane 0 (fun p => to8 p.1) ++ plane 1 (fun p => to8 p.2.1) ++ plane 2 (fun p => to8 p.2.2)
  | _ => plane 0 luma8

/-! ### Statistics (R254 to R258) -/

/-- A sum that saturates at 32 bits. -/
def satSum (l : List Nat) : Nat := sat32 (l.foldl (· + ·) 0)

/-- The sites of a window clipped to a frame. -/
def inWindow (x0 y0 ww wh w h : Nat) : List (Nat × Nat) :=
  (List.range (Nat.min (y0 + wh) h - y0)).foldr (fun (y : Nat) (acc : List (Nat × Nat)) =>
    (List.range (Nat.min (x0 + ww) w - x0)).map (fun (x : Nat) => (x0 + x, y0 + y)) ++ acc) []

/-- The histogram (R255): bins and the pixels counted. -/
def histogram (b : List Byte) (w h : Nat) (m : RgbImg) : List Nat × Nat :=
  let px := inWindow (fldAt b 0xE4 0 16) (fldAt b 0xE4 16 16) (fldAt b 0xE8 0 16) (fldAt b 0xE8 16 16) w h
  let bin := px.map (fun (p : Nat × Nat) =>
    let v := m.px p.1 p.2
    Nat.min 255 ((v.1 + 2 * v.2.1 + v.2.2 + 2) / 4 / pow2 (fldAt b 0xE0 0 4)))
  ((List.range 256).map (fun k => sat32 (bin.filter (fun x => x = k)).length), sat32 px.length)

/-- One cell of the white-balance grid (R256): SUM_R, SUM_G, SUM_B, COUNT, SAT. -/
structure WbCell where
  r : Nat
  g : Nat
  b : Nat
  n : Nat
  sat : Nat
  deriving DecidableEq, Repr

def wbCell (b : List Byte) (w h full : Nat) (m : Img) (cx cy : Nat) : WbCell :=
  let cw := w / 64
  let ch := full / 48
  let quads := inWindow (cx * cw) (cy * ch) cw ch (cx * cw + cw) (h / 2)
  let sites (q : Nat × Nat) : List (Nat × Nat) :=
    [(2 * q.1, 2 * q.2), (2 * q.1 + 1, 2 * q.2), (2 * q.1, 2 * q.2 + 1), (2 * q.1 + 1, 2 * q.2 + 1)]
  let good := quads.filter (fun (q : Nat × Nat) =>
    (sites q).all (fun (p : Nat × Nat) => decide (m.px p.1 p.2 < fldAt b 0xEC 0 20)))
  let sum (c : Nat) : Nat := satSum (good.map (fun (q : Nat × Nat) =>
    ((sites q).filter (fun (p : Nat × Nat) => siteCh b p.1 p.2 = c)).foldl (fun (s : Nat) (p : Nat × Nat) => s + m.px p.1 p.2) 0))
  { r := sum 0, g := sum 1, b := sum 2, n := Nat.min 65535 good.length, sat := Nat.min 65535 (quads.length - good.length) }

def wbGrid (b : List Byte) (w h full : Nat) (m : Img) : List WbCell :=
  (List.range 24).foldr (fun (cy : Nat) (acc : List WbCell) =>
    (List.range 32).map (fun (cx : Nat) => wbCell b w h full m cx cy) ++ acc) []

def absDiff (a b : Nat) : Nat := (a - b) + (b - a)

/-- One focus window (R257): FH, FV, LSUM, NPIX. -/
def focusWin (b : List Byte) (w h : Nat) (g : RgbImg) (k : Nat) : List Nat :=
  let x0 := fldAt b (0x100 + 8 * k) 0 16
  let y0 := fldAt b (0x100 + 8 * k) 16 16
  let ww := fldAt b (0x104 + 8 * k) 0 16
  let wh := fldAt b (0x104 + 8 * k) 16 16
  let px := inWindow x0 y0 ww wh w h
  let v (x y : Nat) : Nat := (g.px x y).2.1
  [satSum ((inWindow x0 y0 (ww - 1) wh (w - 1) h).map (fun (p : Nat × Nat) => absDiff (v (p.1 + 1) p.2) (v p.1 p.2))),
   satSum ((inWindow x0 y0 ww (wh - 1) w (h - 1)).map (fun (p : Nat × Nat) => absDiff (v p.1 (p.2 + 1)) (v p.1 p.2))),
   satSum (px.map (fun (p : Nat × Nat) => v p.1 p.2)), sat32 px.length]

/-- Everything that the pipe makes of a frame. -/
structure IspOut where
  lines : List (Nat × List Byte)
  hist  : List Nat
  total : Nat
  grid  : List WbCell
  focus : List (List Nat)
  ref   : RgbImg
  deriving DecidableEq, Repr

/-- One frame through the pipe: `full` lines of a frame, of which the first `h` have come; the defect list; the temporal
reference where stage 6 runs. -/
def ispFrame (b : List Byte) (list : List (Nat × Nat)) (w h full : Nat) (exps : List Img) (ref : Option (List Byte)) : IspOut :=
  let s3 := exps.map (fun (m : Img) => stage3 b w h full (stage2 b list w h (stage1 b w h m)))
  let s4 := s3.map (fun (m : Img) => stage4 b w h m)
  let s5 := stage5 b w h s4
  let s6 := stage6 b w h ref s5
  let s8 := (stage7 b w h s6).map (fun (r : List Rgb) => r.map (ccmPx b))
  let s9 := s8.map (fun (r : List Rgb) => r.map (tonePx b))
  let k := fldAt b 0xE0 8 2
  let hist := histogram b w h s5
  { lines := stage11 b (stage10 b s9), hist := hist.1, total := hist.2
    grid := wbGrid b w h full (s3.getD k []), focus := (List.range 16).map (focusWin b w h (s4.getD k [])), ref := s6 }

/-- The averages of R258 from a frame's grid, or unchanged. -/
def averages (b : List Byte) (grid : List WbCell) (partial_ : Bool) (a : Word × Word × Word) : Word × Word × Word :=
  let r := grid.foldl (fun (s : Nat) (c : WbCell) => s + c.r) 0
  let g := grid.foldl (fun (s : Nat) (c : WbCell) => s + c.g) 0
  let bl := grid.foldl (fun (s : Nat) (c : WbCell) => s + c.b) 0
  let n := grid.foldl (fun (s : Nat) (c : WbCell) => s + c.n) 0
  if partial_ ∨ n = 0 ∨ g = 0 then a
  else
    let f (x : Nat) : Val := (Val.ofInt (x : Int)).fl
    let step (avg : Word) (x : Val) : Word :=
      let v := fp32 avg
      (v.fadd (((x.sub v).scale (-(fldAt b 0xE0 16 4 : Int))).fl)).code32
    let div (x y : Nat) : Val :=
      match f x, f y with
      | .fin false m1 e1, .fin false m2 e2 => Fmt.fp32.decode (FpFmt.convRat Fmt.fp32.fp .rne false false m1 m2 (e1 - e2)).code
      | _, _ => .nan
    (step a.1 (div g (2 * n)), step a.2.1 (div r g), step a.2.2 (div bl g))

/-- A statistics record of 13,632 bytes from its header and a frame's statistics (R254). -/
def statRecord (header : List Byte) (o : IspOut) : List Byte :=
  let w4 (l : List Nat) : List Byte := l.foldr (fun (x : Nat) (acc : List Byte) => leBytes 4 x ++ acc) []
  header ++ w4 o.hist ++
  o.grid.foldr (fun (c : WbCell) (acc : List Byte) => w4 [c.r, c.g, c.b, c.n + c.sat * 65536] ++ acc) [] ++
  o.focus.foldr (fun (l : List Nat) (acc : List Byte) => w4 l ++ acc) []

end Sys2Proof.Machine
end

