-- ==== Sys2Proof/Machine/Dma.lean ====
section
/-! DEFINITION. The DMA engines (R179, R193 to R201). -/

namespace Sys2Proof.Machine

/-- The number under which the regulator holds a transfer of a descriptor. -/
def slotDma (ser : Nat) : Nat := 6 + ser

/-! ### Descriptors (Table 6.4) -/

structure DFields where
  kind : Nat
  dims : Nat
  side : Bool
  fence : Bool
  flagEn : Bool
  flagHost : Bool
  flag : Nat
  src : Nat
  dst : Nat
  len0 : Nat
  cnt1 : Nat
  cnt2 : Nat
  ss1 : Int
  ds1 : Int
  ss2 : Int
  ds2 : Int
  idxOff : Nat
  cookie : Nat
  deriving DecidableEq, Repr

def dmaFields (l : List Byte) : DFields :=
  let w (i : Nat) := wordAt l (4 * i)
  { kind := bits (w 0) 0 4, dims := bits (w 0) 4 2, side := decide (bits (w 0) 6 1 = 1),
    fence := decide (bits (w 0) 7 1 = 1), flagEn := decide (bits (w 0) 8 1 = 1), flagHost := decide (bits (w 0) 9 1 = 1),
    flag := bits (w 1) 0 18, src := w 2 + pow2 32 * bits (w 3) 0 16, dst := w 4 + pow2 32 * bits (w 5) 0 16,
    len0 := bits (w 6) 0 25, cnt1 := bits (w 7) 0 24, cnt2 := bits (w 8) 0 16, ss1 := sgn 32 (w 9), ds1 := sgn 32 (w 10),
    ss2 := sgn 32 (w 11), ds2 := sgn 32 (w 12), idxOff := bits (w 13) 0 24, cookie := w 14 }

def dmaReserved (l : List Byte) : Bool :=
  let w (i : Nat) := wordAt l (4 * i)
  decide (bits (w 0) 10 22 ≠ 0 ∨ bits (w 1) 18 14 ≠ 0 ∨ bits (w 3) 16 16 ≠ 0 ∨ bits (w 5) 16 16 ≠ 0 ∨
    bits (w 6) 25 7 ≠ 0 ∨ bits (w 7) 24 8 ≠ 0 ∨ bits (w 8) 16 16 ≠ 0 ∨ bits (w 13) 24 8 ≠ 0 ∨ w 15 ≠ 0)

/-- Rows of a COPY, elements of a GATHER, one run of a FEED. -/
def DFields.rows (x : DFields) : Nat :=
  if x.kind = 1 then (if x.dims = 0 then 1 else x.cnt1) * (if x.dims = 2 then x.cnt2 else 1)
  else if x.kind = 2 then x.cnt1
  else if x.kind = 3 then 1
  else 0

/-- The field checks of R200, in the order of R146. `sets` are the host flags that the job's entry declares as set. -/
def dmaCheck (l : List Byte) (sets : List Nat) : Chk Unit := do
  let x := dmaFields l
  let copy := decide (x.kind = 1)
  require (!dmaReserved l) .reservedField
  require (decide (x.kind ≤ 3) && !(copy && decide (x.dims = 3))) .descField
  require (decide (x.kind = 0) || decide (1 ≤ x.len0 ∧ x.len0 ≤ 16777216)) .descField
  require (!(copy && decide (1 ≤ x.dims) || decide (x.kind = 2)) || decide (1 ≤ x.cnt1)) .descField
  require (!(copy && decide (x.dims = 2)) || decide (1 ≤ x.cnt2)) .descField
  if x.kind = 3 then
    require (decide (x.src % 32 = 0)) .misaligned x.src
    require (if x.side then decide (x.len0 ≤ feedSideSize) else decide (x.len0 % 32 = 0 ∧ x.len0 ≤ feedMainSize)) .misaligned x.src
  require (decide (x.kind ≠ 2 ∨ x.idxOff % 4 = 0)) .misaligned 0
  if x.flagEn then
    if x.flagHost then require (sets.contains x.flag) .flagUndeclared
    else require (decide (x.flag < 256)) .localFlag

/-! ### Engine state -/

def Dev.updDe (d : Dev) (n : Nat) (f : Engine → Engine) : Dev := d.updCore n (fun c => { c with de := f c.de })

/-- The descriptors whose transfers are not all made, in list order. -/
def Engine.toMove (e : Engine) : List DDesc := e.descs.filter (fun x => !x.moved)

/-- Descriptors start in list order (R198); one with FENCE once every earlier one has completed (Table 6.4). -/
def Engine.mayStart (e : Engine) (y : DDesc) : Bool :=
  y.started || ((e.descs.filter (fun z => decide (z.ser < y.ser))).all (·.started) &&
    (!(dmaFields y.raw).fence || decide (e.descs.head?.map (·.ser) = some y.ser)))

/-- A FEED delivers after every earlier FEED of the engine (R170, R197). -/
def Engine.feedTurn (e : Engine) (y : DDesc) : Bool :=
  e.toMove.all (fun z => decide (y.ser ≤ z.ser) || decide ((dmaFields z.raw).kind ≠ 3))

def Engine.put (e : Engine) (x : DDesc) : Engine := { e with descs := e.descs.map (fun y => if y.ser = x.ser then x else y) }

/-- The batches of which the engine holds a descriptor (R193). -/
def Engine.batches (e : Engine) : Nat :=
  (e.descs.foldl (fun acc x => let k := (x.list, x.idx / 16); if acc.contains k then acc else acc ++ [k]) ([] : List (Nat × Nat))).length

/-- The list has no feed bytes left to deliver: fetched to its end, and every FEED of it moved. -/
def Engine.fed (e : Engine) (id : Nat) : Bool :=
  (match e.lists.find? (fun l => l.id = id) with
   | some l => decide (l.fetched = l.count)
   | none => true) &&
  e.descs.all (fun x => x.list ≠ id || x.moved || (dmaFields x.raw).kind ≠ 3)

/-- Lists that have delivered their bytes leave the head of the feed order (R170). -/
def Core.passLists : Nat → Core → Core
  | 0, c => c
  | k + 1, c =>
    match c.feedSrc with
    | .list id :: t => if c.de.fed id then ({ c with feedSrc := t }).passLists k else c
    | _ => c

/-- The feed order moves on, and with it what waits for its bytes. -/
def Dev.feedOn (d : Dev) (n : Nat) : Dev := (d.updCore n (fun c => c.passLists c.feedSrc.length)).run n

/-- A DMA fault (R200): the fault registers, then the gang's halt with AUX = the descriptor's device address. -/
def Dev.dmaFault (d : Dev) (n : Nat) (x : DDesc) (e : HaltReason × Nat) (field : Bool) : Dev :=
  let d := if e.1 = .eccUncorrectable then d.eccEvent (d.jobOf n) (addrUnit e.2) e.2 else d
  let d := d.setFld (Reg.CCn_DE_STATUS n) Fld.CCn_DE_STATUS_FAULT 1
  let d := d.setReg (Reg.CCn_DE_FAULT_INFO n) (BitVec.ofNat 32 (e.1.code + x.idx % 4096 * 256))
  let d := d.setReg (Reg.CCn_DE_FAULT_DESC n) (BitVec.ofNat 32 x.off)
  let d := d.setReg64 (Reg.CCn_DE_FAULT_ADDR_LO n) (Reg.CCn_DE_FAULT_ADDR_HI n) (if field then 0 else e.2)
  let d := d.setReg (Reg.CCn_DE_FAULT_COOKIE n) (BitVec.ofNat 32 (dmaFields x.raw).cookie)
  d.haltGang n e.1 noSlot (coreAddr n x.off) (d.oldest n)

/-- The host flags that the core's job declares as set. -/
def Dev.declared (d : Dev) (n : Nat) : List Nat :=
  match d.jobOf n with
  | some (_, j) => j.sets
  | none => []

/-! ### Fetch (R193, R199) -/

/-- The bundle of the DMA operation that submitted a list. -/
def Dev.listPos (d : Dev) (n id : Nat) : Nat × Word :=
  match (d.core n).de.lists.find? (fun l => l.id = id) with
  | some l => l.pos
  | none => d.oldest n

/-- What the drains of bundles before a list's DMA operation are still to write (R20, R112). -/
def Dev.drainsBefore (d : Dev) (n id : Nat) : List (Nat × Nat) :=
  let c := d.core n
  let ord := ((c.de.lists.find? (fun l => l.id = id)).map (·.ord)).getD c.ord
  (c.drains.filter (fun p => decide (p.ord < ord))).flatMap (fun p => p.ranges n)

/-- What the engine of core `n` meets in a step of its list `id`: copies of its address generation that differ (R320), or an
uncorrectable word of the core's register files (R186), both charged to the DMA operation's bundle; otherwise its effect. -/
def Dev.engineStep (d : Dev) (c : At) (id : Nat) (f : Dev → Dev) : Dev :=
  let n := c.core.val
  let d := d.meetAt c
  if c.ph.reg then d.regHalt n noSlot (d.listPos n id)
  else if c.ph.dup then d.detect n 4 .duplicate (d.listPos n id)
  else f d

/-- Fetch a batch of a list that is not fetched to its end: its next 16 descriptors, or those that it still has. -/
def Dev.batchFetch (d : Dev) (n : Nat) (l : DList) : Dev :=
  let e := (d.core n).de
  let k := Nat.min 16 (l.count - l.fetched)
  let off := l.off + 64 * l.fetched
  if meetRanges [(coreAddr n off, 64 * k)] (d.drainsBefore n l.id) then d
  else match d.poisoned (coreAddr n off) (64 * k) with
    | some a => d.dmaFault n { ser := 0, list := l.id, idx := l.fetched, off := off, raw := [] } (.eccUncorrectable, a) false
    | none =>
      let new := (List.range k).map (fun i =>
        ({ ser := e.nextSer + i, list := l.id, idx := l.fetched + i, off := off + 64 * i,
           raw := d.bytes (agentDe n) (coreAddr n (off + 64 * i)) 64 } : DDesc))
      (d.updDe n (fun e => { e with
        descs := e.descs ++ new, nextSer := e.nextSer + k,
        lists := e.lists.map (fun x => if x.id = l.id then { x with fetched := x.fetched + k } else x) })).feedOn n

/-- DMA_BATCH_FETCH: up to 16 descriptors of the oldest list that is not fetched to its end. -/
def execDmaBatchFetch (c : At) (s : State) := act s (fun d =>
  let n := c.core.val
  let e := (d.core n).de
  if !d.issuing n || 2 ≤ e.batches then d.meetAt c
  else match e.lists.find? (fun l => l.fetched < l.count) with
    | none => d.meetAt c
    | some l => d.engineStep c l.id (fun d => d.batchFetch n l))

/-! ### Transfers (R195 to R198) -/

/-- Some source byte of the descriptor lies at an address (R195). -/
def DFields.reads (x : DFields) (a : Nat) : Bool :=
  x.kind = 1 && (List.range x.rows).any (fun r =>
    let y := if x.dims = 0 then 0 else r % x.cnt1
    let z := if x.dims = 2 then r / x.cnt1 else 0
    let s := addrPlus (BitVec.ofNat 48 x.src) (z * x.ss2 + y * x.ss1)
    decide (s ≤ a ∧ a < s + x.len0))

/-- The name of a descriptor among the stores of its engine. -/
def serOf (ser : Nat) : Nat := ser + 1

/-- Write one byte of a transfer: a byte that the descriptor also reads ends undefined (R195), one that another descriptor
not yet completed has written ends with the value of either (R198). -/
def Dev.dmaPut (d : Dev) (n ser : Nat) (x : DFields) (a : Nat) (b : Byte) : Dev :=
  let rival := (Tbl.getD d.stale a []).any (fun u => u.who = agentDe n && u.ser ≠ serOf ser)
  let b := if x.reads a then Config.freeByte d.ctr a
    else if rival && Config.freeBit d.ctr a then d.byte a
    else b
  d.storeByte (agentDe n) a b (serOf ser)

def Dev.dmaWrite (d : Dev) (n ser : Nat) (x : DFields) : Nat → List Byte → Dev
  | _, [] => d
  | a, b :: t => (d.dmaPut n ser x a b).dmaWrite n ser x (a + 1) t

/-- Source and destination of row r of a COPY. -/
def DFields.copyRow (x : DFields) (r : Nat) : Nat × Nat :=
  let y : Int := if x.dims = 0 then 0 else ((r % x.cnt1 : Nat) : Int)
  let z : Int := if x.dims = 2 then ((r / x.cnt1 : Nat) : Int) else 0
  (addrPlus (BitVec.ofNat 48 x.src) (z * x.ss2 + y * x.ss1), addrPlus (BitVec.ofNat 48 x.dst) (z * x.ds2 + y * x.ds1))

/-- Where the row that a descriptor stands at reads from; a GATHER reads its index when it starts an element (R196). -/
def Dev.rowSource (d : Dev) (n : Nat) (y : DDesc) (x : DFields) : Chk Nat :=
  if y.pos ≠ 0 then .ok y.src
  else if x.kind = 1 then .ok (x.copyRow y.row).1
  else if x.kind = 3 then .ok x.src
  else
    let off := x.idxOff + 4 * y.row
    if coreSize < off + 4 then haltWith .addressRange (coreAddr n coreSize)
    else match d.poisoned (coreAddr n off) 4 with
      | some a => haltWith .eccUncorrectable a
      | none =>
        .ok (addrPlus (BitVec.ofNat 48 x.src) ((leNat (d.bytes (agentDe n) (coreAddr n off) 4) : Int) * x.ss1))

def DFields.rowDest (x : DFields) (r : Nat) : Nat :=
  if x.kind = 1 then (x.copyRow r).2 else addrPlus (BitVec.ofNat 48 x.dst) ((r : Int) * x.ds1)

/-- Bytes of the next transfer: at most 256, none across a 256-byte boundary of its source (R193). -/
def transferSize (src left : Nat) : Nat := Nat.min left (256 - src % 256)

/-- Room in the lane of the feed queue that a FEED names. -/
def Core.laneRoom (c : Core) (side : Bool) : Nat :=
  if side then feedSideSize - c.feedSide.length else feedMainSize - c.feedMain.length

/-- A FEED may deliver: its list is first in the feed order, no earlier FEED of it is left, and the lane has room. -/
def Core.mayFeed (c : Core) (y : DDesc) (x : DFields) (k : Nat) : Bool :=
  decide (c.feedSrc.head? = some (.list y.list)) && c.de.feedTurn y && decide (k ≤ c.laneRoom x.side)

def Core.feed (c : Core) (side : Bool) (l : List Byte) : Core :=
  if side then { c with feedSide := c.feedSide ++ l } else { c with feedMain := c.feedMain ++ l }

/-- The ranges that the next transfer touches: its index entry, its source and its destination. -/
def DFields.touches (x : DFields) (n : Nat) (y : DDesc) (a dst k : Nat) : List (Nat × Nat) :=
  (if x.kind = 2 ∧ y.pos = 0 then [(coreAddr n (x.idxOff + 4 * y.row), 4)] else []) ++
  [(a, k)] ++ (if x.kind = 3 then [] else [(dst, k)])

/-- The bytes of a transfer reach their destination: the lane of the feed queue, or memory. -/
def Dev.deliverTransfer (d : Dev) (n : Nat) (y : DDesc) (x : DFields) (dst : Nat) (l : List Byte) : Dev :=
  if x.kind = 3 then d.updCore n (fun c => c.feed x.side l)
  else
    let k := l.length
    (((((d.partialEvents (agentDe n) dst k).cleanPoison dst k).countWr dst k).noteOuts n [(dst, k)]).dmaWrite n y.ser x dst l)

/-- A descriptor after a transfer of `k` bytes of the row that it stands at. -/
def DDesc.advance (y : DDesc) (x : DFields) (src k : Nat) : DDesc :=
  if y.pos + k < x.len0 then { y with pos := y.pos + k, src := src }
  else { y with pos := 0, row := y.row + 1, moved := decide (x.rows ≤ y.row + 1) }

/-- One transfer of a descriptor; the answer says whether it was made. -/
def Dev.transfer (d : Dev) (n : Nat) (y : DDesc) (x : DFields) : Dev × Bool :=
  match d.rowSource n y x with
  | .error e => (d.dmaFault n y e false, false)
  | .ok src =>
    let bad := if y.pos ≠ 0 then none
      else match d.firstBad src x.len0 with
        | some a => some a
        | none => if x.kind = 3 then none else d.firstBad (x.rowDest y.row) x.len0
    match bad with
    | some a => (d.dmaFault n y (.addressRange, a) false, false)
    | none =>
      let a := src + y.pos
      let k := transferSize a (x.len0 - y.pos)
      let dst := x.rowDest y.row + y.pos
      if (x.kind = 3 && !(d.core n).mayFeed y x k) || meetRanges (x.touches n y a dst k) (d.drainsBefore n y.list) then (d, false)
      else match d.poisoned a k with
        | some b => (d.dmaFault n y (.eccUncorrectable, b) false, false)
        | none =>
          let r := d.meter n (slotDma y.ser) (d.charged a k + (if x.kind = 3 then 0 else d.charged dst k))
          if !r.2 then (r.1, false)
          else
            let d := r.1.countRd a k
            let l := (List.range k).map (fun i => d.see (agentDe n) (a + i) (serOf y.ser))
            ((d.deliverTransfer n y x dst l).updDe n (fun e => e.put (y.advance x src k)), true)

/-- Up to `k` transfers of the descriptor numbered `ser`, while the engine goes on. -/
def Dev.transfers (d : Dev) (n ser : Nat) : Nat → Dev
  | 0 => d
  | k + 1 =>
    match (d.core n).de.toMove.find? (fun y => y.ser = ser) with
    | none => d
    | some y =>
      let r := d.transfer n y (dmaFields y.raw)
      if r.2 then r.1.transfers n ser k else r.1

/-- The engine works on a descriptor of the kind named: its field checks before its first transfer, then up to `k`
transfers. -/
def Dev.dmaWork (d : Dev) (n : Nat) (y : DDesc) (kind k : Nat) : Dev :=
  match (if y.started then .ok () else dmaCheck y.raw (d.declared n)) with
  | .error er => d.dmaFault n y er true
  | .ok _ =>
    if (dmaFields y.raw).kind ≠ kind then d
    else
      let d := d.updDe n (fun e => e.put { y with started := true, moved := decide (kind = 0) })
      let d := d.transfers n y.ser k
      if d.issuing n then d.feedOn n else d

/-- A step of the engine on the `i`-th of its descriptors whose transfers are not all made. -/
def Dev.dmaStep (d : Dev) (c : At) (kind i k : Nat) : Dev :=
  let n := c.core.val
  if !d.issuing n then d.meetAt c
  else match (d.core n).de.toMove[i]? with
    | none => d.meetAt c
    | some y => d.engineStep c y.list (fun d => if (d.core n).de.mayStart y then d.dmaWork n y kind k else d)

def execDmaCopy (c : DmaAt) (k : Nat) (s : State) := act s (fun d => d.dmaStep c.toAt 1 c.desc.val k)
def execDmaGather (c : DmaAt) (k : Nat) (s : State) := act s (fun d => d.dmaStep c.toAt 2 c.desc.val k)
def execDmaFeed (c : DmaAt) (k : Nat) (s : State) := act s (fun d => d.dmaStep c.toAt 3 c.desc.val k)
def execDmaNop (c : DmaAt) (s : State) := act s (fun d => d.dmaStep c.toAt 0 c.desc.val 0)

/-! ### Completion (R198) -/

/-- A host flag that a program or its engine sets: held in the gang, where its own WAITs see it (R327). -/
def Dev.holdFlag (d : Dev) (n f : Nat) : Dev :=
  match d.jobOf n with
  | some (l, j) => d.setJob l { j with heldFlags := j.heldFlags ++ [f] }
  | none => d

/-- A gang-local flag goes up by one; it wraps (R177). -/
def Dev.addLocal (d : Dev) (n f : Nat) : Dev :=
  match d.jobOf n with
  | some (l, j) => d.setJob l { j with flags := Tbl.put 0 j.flags f (Tbl.getD j.flags f 0 + 1) }
  | none => d

/-- The bytes that a completed descriptor wrote become visible (R22). -/
def Dev.releaseSer (d : Dev) (n ser : Nat) : Dev := d.releaseIf (fun u => u.who = agentDe n && u.ser = serOf ser)

/-- The oldest descriptor of core `n`, every transfer of it made, completes. -/
def Dev.descComplete (d : Dev) (n : Nat) : Dev :=
  match (d.core n).de.descs with
  | [] => d
  | y :: t =>
    if !y.moved then d
    else
      let x := dmaFields y.raw
      let d := d.releaseSer n y.ser
      let last (l : DList) : Bool := l.id = y.list && y.idx + 1 = l.count
      let d := d.updDe n (fun e => { e with descs := t, lists := e.lists.filter (fun l => !last l) })
      let d := d.addReg (Reg.CCn_DE_DONE n) 1
      let d := if x.flagEn then (if x.flagHost then d.holdFlag n x.flag else d.addLocal n x.flag) else d
      d.feedOn n

/-- DMA_DESC_COMPLETE: what has been issued finishes also while the gang is halted (R201). -/
def execDmaDescComplete (c : At) (s : State) := act s (fun d =>
  let n := c.core.val
  match (d.core n).de.descs with
  | [] => d.meetAt c
  | y :: _ =>
    if d.issuing n then d.engineStep c y.list (fun d => d.descComplete n) else (d.meetAt c).descComplete n)

/-! ### DMA and DWAIT (R179, R198) -/

/-- The bundle in issue holds a WFILL whose place in the feed order is still to be taken. -/
def Core.fillPending (c : Core) : Bool :=
  c.loadPending && c.cur.any (fun b => decide (bits (slotBits b.q.bits slotLoad) 0 6 = 0x0A))

/-- DMA: submit sN descriptors at aA; it stalls while 64 lists are outstanding. Within its bundle a WFILL goes before it in
the feed order (R170). -/
def execDma (c : At) (aa : Fin 16) (sn : Fin 32) (s : State) := slotAct (.dma c aa sn) s (fun d =>
  d.slot c slotSync (fun d n v =>
    let cnt := (v.rs sn).toNat
    let a := (v.ra aa).toNat
    let chk : Chk Unit := do
      require (decide (1 ≤ cnt ∧ cnt ≤ 4096)) .countRange cnt
      require (inCore n a) .addressRange a
      require (inCore n (a + 64 * cnt - 1)) .addressRange (coreAddr n coreSize)
      require (decide (a % 64 = 0)) .misaligned a
    match chk with
    | .error e => .halt d e.1 e.2
    | .ok _ =>
      if 64 ≤ (d.core n).de.lists.length || (d.core n).fillPending then .wait d
      else
        let new (c : Core) : DList := { id := c.de.nextId, off := a - coreBase n, count := cnt, ord := c.ord, pos := d.curPos n }
        .ok (d.updCore n (fun c => { c with
          de := { c.de with lists := c.de.lists ++ [new c], nextId := c.de.nextId + 1 }
          feedSrc := c.feedSrc ++ [.list c.de.nextId] }))))

/-- A sync wait: its Trail records at its begin and at its end (R138). DESIGN CHOICE: one whose condition holds at its first try
does not wait, and writes neither (the spec does not say; BAR writes none). -/
def Dev.syncWait (d : Dev) (c : At) (on : WaitOn) (aux : Dev → Nat → View → Nat) (chk : Dev → Nat → View → Chk Unit)
    (ready : Dev → Nat → View → Bool) : Dev :=
  d.slot c slotSync (fun d n v =>
    let waits := (d.core n).waiting.isSome
    match chk d n v with
    | .error e => .halt d e.1 e.2
    | .ok _ =>
      if ready d n v then
        let d := if waits then d.trailCur n 0x08 slotSync (aux d n v) c.ph.trailBusy else d
        .ok (d.updCore n (fun c => { c with waiting := none }))
      else if waits then .wait d
      else .wait ((d.trailCur n 0x07 slotSync (aux d n v) c.ph.trailBusy).updCore n (fun c => { c with waiting := some on })))

/-- DWAIT: until the completed count reaches sN[31:0]. -/
def execDwait (c : At) (sn : Fin 32) (s : State) := slotAct (.dwait c sn) s (fun d =>
  d.syncWait c .count (fun _ _ _ => 0) (fun _ _ _ => .ok ())
    (fun d n v => decide (low32 (v.rs sn) ≤ (d.reg (Reg.CCn_DE_DONE n)).toNat)))

end Sys2Proof.Machine
end

