-- ==== Sys2Proof/Machine/Sync.lean ====
section
/-! DEFINITION. The sync slot's flags, barriers and layers, replay and the debug commands (R101, R103, R132 to R139, R176 to
R180, R325 to R327). -/

namespace Sys2Proof.Machine

/-! ### Flags (R176, R177, R327) -/

/-- The drains of earlier bundles have written: a flag's release takes their stores in (R21, R176). -/
def Dev.drainsDone (d : Dev) (n : Nat) : Bool := (d.core n).drains.isEmpty

/-- SET: a declared host event flag, held in the gang until the layer closes. -/
def execSet (c : At) (sn : Fin 32) (s : State) := slotAct (.set c sn) s (fun d =>
  d.slot c slotSync (fun d n v =>
    let f := (v.rs sn).toNat
    if f < nFlags ∧ (d.declared n).contains f then
      if d.drainsDone n then .ok ((d.release (agentCore n)).holdFlag n f) else .wait d
    else .halt d .flagUndeclared f))

/-- The gang's own WAITs see a flag that is set or held in the gang. -/
def Dev.seesFlag (d : Dev) (n f : Nat) : Bool :=
  d.flag f || (match d.jobOf n with
    | some (_, j) => j.heldFlags.contains f
    | none => false)

/-- WAIT. -/
def execWait (c : At) (sn : Fin 32) (s : State) := slotAct (.wait c sn) s (fun d =>
  d.syncWait c .flag (fun _ _ v => (v.rs sn).toNat)
    (fun _ _ v => require (decide ((v.rs sn).toNat < nFlags)) .flagUndeclared (v.rs sn).toNat)
    (fun d n v => d.seesFlag n (v.rs sn).toNat))

/-- Index of a local flag: LF + sR. -/
def localIdx (v : View) (lf : BitVec 8) (sr : Fin 32) : Nat := (BitVec.setWidth 64 lf + v.rs sr).toNat

/-- SETL: a gang-local flag goes up by one, with release. -/
def execSetl (c : At) (lf : BitVec 8) (sr : Fin 32) (s : State) := slotAct (.setl c lf sr) s (fun d =>
  d.slot c slotSync (fun d n v =>
    let i := localIdx v lf sr
    if i < 256 then
      if d.drainsDone n then .ok ((d.release (agentCore n)).addLocal n i) else .wait d
    else .halt d .localFlag i))

/-- A local flag's count. -/
def Dev.localFlag (d : Dev) (n i : Nat) : Nat :=
  match d.jobOf n with
  | some (_, j) => (Tbl.getD j.flags i 0).toNat
  | none => 0

/-- WAITL: until local flag LF + sR reaches sN[31:0]. -/
def execWaitl (c : At) (lf : BitVec 8) (sr sn : Fin 32) (s : State) := slotAct (.waitl c lf sr sn) s (fun d =>
  d.syncWait c .count (fun _ _ v => localIdx v lf sr)
    (fun _ _ v => require (decide (localIdx v lf sr < 256)) .localFlag (localIdx v lf sr))
    (fun d n v => decide (low32 (v.rs sn) ≤ d.localFlag n (localIdx v lf sr))))

/-! ### BAR and PHASE (R178, R179, R359) -/

/-- BAR: it issues in every member once every member has reached it, their earlier stores visible. -/
def Dev.tryBar (d : Dev) (n : Nat) : Dev :=
  let g := d.gangOf n
  if g.2.all (fun m => (d.core m).atBar) then
    g.2.foldl (fun d m =>
      ((d.release (agentCore m)).updCore m (fun c => { c with atBar := false }.mark slotSync)).issued m) d
  else d

def execBar (c : At) (s : State) := slotAct (.bar c) s (fun d =>
  let n := c.core.val
  let d := d.slot c slotSync (fun d n _ => .wait (d.updCore n (fun c => { c with atBar := true })))
  if d.issuing n && (d.core n).atBar then d.tryBar n else d)

/-- PHASE: the leader's operation records NUM for the gang. -/
def execPhase (c : At) (num : BitVec 8) (s : State) := slotAct (.phase c num) s (fun d =>
  d.slot c slotSync (fun d n _ =>
    let d := d.trailCur n 0x06 slotSync num.toNat c.ph.trailBusy
    match (d.core n).gang with
    | some l => .ok (if l = n then d.enterPhase l num.toNat else d)
    | none => .ok d))

/-! ### The end of a layer (R101, R132, R133, R180) -/

/-- Totals of the statistics slots: SSE and SSV from +0.0, slots ascending, RNE; exact sums of the counts (R101). -/
def Core.totals (c : Core) : Word × Word × Nat × Nat :=
  c.stats.foldl (fun acc e =>
    (((fp32 acc.1).fadd (fp32 e.2.sse)).code32, ((fp32 acc.2.1).fadd (fp32 e.2.ssv)).code32,
      acc.2.2.1 + e.2.count, acc.2.2.2 + e.2.clip)) ((0, 0, 0, 0) : Word × Word × Nat × Nat)

/-- Latch the statistics registers and clear the slots (R101, R103). -/
def Dev.latchStats (d : Dev) (n : Nat) : Dev :=
  let c := d.core n
  let t := c.totals
  let d := d.setReg (Reg.CCn_QSTAT_SSE n) t.1
  let d := d.setReg (Reg.CCn_QSTAT_SSV n) t.2.1
  let d := d.setReg64 (Reg.CCn_QSTAT_COUNT_LO n) (Reg.CCn_QSTAT_COUNT_HI n) t.2.2.1
  let d := d.setReg64 (Reg.CCn_QSTAT_CLIP_LO n) (Reg.CCn_QSTAT_CLIP_HI n) t.2.2.2
  let d := d.setReg (Reg.CCn_QSTAT_FLAGS n) (d.reg (Reg.CCn_QSTAT_FLAGS n) ||| c.convFlags.setWidth 32)
  (d.addReg (Reg.CCn_QSTAT_LAYERS n) 1).updCore n (fun c => { c with stats := [], convFlags := 0, arg := [] })

/-- The checkpoint of a member as it stands (R133). -/
def Core.checkpoint (c : Core) (deDone : Word) : Checkpoint :=
  { next := c.next, s := c.s, a := c.a, lc := c.lc, loops := c.loops, sticky := c.sticky,
    layerCount := c.layerCount, retired := c.retired, deDone := deDone }

/-- A member's engine has completed every descriptor and list. -/
def Engine.idle (e : Engine) : Bool := e.lists.isEmpty && e.descs.isEmpty

/-- A FEED finds no room in a queue that nothing empties any more, or its turn in the feed order does not come. -/
def Core.feedStuck (c : Core) (y : DDesc) : Bool :=
  let x := dmaFields y.raw
  decide (x.kind = 3) && !c.mayFeed y x (transferSize (x.src + y.pos) (x.len0 - y.pos))

/-- Nothing is left to the engine but such FEEDs and what waits for them: descriptors whose FENCE holds them, and batches that
it has no room to fetch. -/
def Core.starved (c : Core) : Bool :=
  let e := c.de
  e.descs.head?.any (fun y => !y.moved && c.feedStuck y) &&
  e.toMove.all (fun y => c.feedStuck y || !e.mayStart y) &&
  (decide (2 ≤ e.batches) || e.lists.all (fun l => decide (l.fetched = l.count)))

/-- Every accumulator entry that the layer has written has been drained (R132). -/
def Core.accDrained (c : Core) : Bool := c.acc.all (fun e => !e.2.open_)

/-- A member at its LAYER has nothing in flight: every earlier bundle has retired, the arrays are idle, every entry written has
been drained, the drain path is empty, and the engine has completed its work or can go no further. -/
def Core.layerReady (c : Core) : Bool :=
  c.atLayer && c.older.isEmpty && c.mq.isEmpty && c.stream.isNone && c.drains.isEmpty && c.accDrained && c.held.isNone &&
    (c.de.idle || c.starved)

/-- Feed bytes left over (R180). -/
def Core.leftover (c : Core) : Bool :=
  !(c.feedMain.isEmpty && c.feedSide.isEmpty && c.feedSrc.isEmpty) || c.starved

/-- One member passes its LAYER. -/
def Dev.passLayer (d : Dev) (n : Nat) (busy : Bool) : Dev :=
  match (d.core n).cur with
  | none => d
  | some b =>
    let d := (((d.release (agentCore n)).release (agentDe n)).trailCur n 0x01 slotSync 0 busy).latchStats n
    let d := d.updCore n (fun c => { c with
      codebook := none, layerCount := c.layerCount + 1, v := [], p := [], tb := [],
      atLayer := false, layerNr := false, layerEnd := false }.mark slotSync)
    let d := (d.issued n).retireOne n b
    let d := d.updCore n (fun c => { c with chk := c.checkpoint (d.reg (Reg.CCn_DE_DONE n)) })
    d.setReg (Reg.CCn_STICKY n) ((d.core n).sticky.setWidth 32)

/-- How a job that has come to its END ends (R298). -/
def Job.doneResult (j : Job) : JobResult :=
  { status := if j.replays = 0 then stDone else stDoneReplayed, btag := j.btag }

/-- Firmware holds running gangs for a handover (R417). -/
def Dev.handover (d : Dev) : Bool := decide (d.fld Reg.FW_STATUS Fld.FW_STATUS_ACT = 3)

/-- The LAYER of a gang closes: every member passes it, held flags take effect in order, the local flags and the phase are
checkpointed; then END, a stop that waits for the layer's end, or a handover's hold. -/
def Dev.closeLayer (d : Dev) (l : Nat) (ms : List Nat) (busy : Bool) : Dev :=
  let nr := (d.core l).layerNr
  let fin := (d.core l).layerEnd
  let idx := (d.core l).here
  let d := ms.foldl (fun d n => d.passLayer n busy) d
  match d.job? l with
  | none => d
  | some j =>
    let d := j.heldFlags.foldl (fun d f => d.setFlag f) d
    let j := { j with
      heldFlags := [], chkFlags := j.flags, nr := nr, inReplay := false, phUndo := [],
      chkPhase := if j.phaseOn then some j.phase else none }
    let d := d.setJob l j
    match j.stopAfter with
    | some r => d.endJob l r false
    | none =>
      if fin then d.endJob l j.doneResult false
      else (d.updJob l (fun j => { j with layerHeld := d.handover })).afterRetire l l idx

/-- LAYER and END, once every member has come to it. -/
def Dev.tryLayer (d : Dev) (n : Nat) (busy : Bool) : Dev :=
  let g := d.gangOf n
  if g.2.all (fun m => (d.core m).layerReady) then
    match g.2.find? (fun m => (d.core m).leftover) with
    | some m => d.haltGang m .feedLeftover slotSync (d.core m).feedMain.length (d.curPos m)
    | none => d.closeLayer g.1 g.2 busy
  else d

/-- A member reaches LAYER or END; the other slots of its bundle belong to the layer that ends. -/
def Dev.reachLayer (d : Dev) (c : At) (nr fin : Bool) : Dev :=
  let n := c.core.val
  let d := d.slot c slotSync (fun d n _ =>
    let k := d.core n
    if fin && !k.loops.isEmpty then .halt d .endInLoop k.loops.length
    else if k.cur.any (fun b => b.issued ||| 32#6 ≠ 63#6) then .wait d
    else .wait (d.updCore n (fun c => { c with atLayer := c.cur.isSome, layerNr := nr, layerEnd := fin })))
  if d.issuing n && (d.core n).atLayer then d.tryLayer n c.ph.trailBusy else d

def execLayer (c : At) (nr : Bool) (s : State) := slotAct (.layer c nr) s (fun d => d.reachLayer c nr false)
def execEnd (c : At) (s : State) := slotAct (.end_ c) s (fun d => d.reachLayer c false true)

/-! ### Replay (R133, R134, R201, R325) -/

/-- A fenced member needs its partner: a member of the gang, or free (R330). -/
def Dev.canHost (d : Dev) (j : Job) : Bool :=
  j.members.all (fun n =>
    !d.logicFenced n ||
      (!d.logicFenced (partner n) && (j.members.contains (partner n) || (d.core (partner n)).gang.isNone)))

/-- A member restores its checkpoint. -/
def Core.restore (c : Core) : Core :=
  { c with
    s := c.chk.s, a := c.chk.a, lc := c.chk.lc, loops := c.chk.loops, sticky := c.chk.sticky,
    layerCount := c.chk.layerCount, retired := c.chk.retired, next := c.chk.next,
    v := [], p := [], tb := [], iq := [], cur := none, older := [], scalarRep := none, syncRep := none,
    atBar := false, atLayer := false, waiting := none, layerNr := false, layerEnd := false,
    branchTo := none, taken := false, mq := [], stream := none, drains := [], feedMain := [], feedSide := [], feedSrc := [],
    acc := c.acc.map (fun e => (e.1, { e.2 with open_ := false })),
    codebook := none, stats := [], convFlags := 0, arg := [], held := none, granted := 0, halted := false, disarm := none,
    de := { nextId := c.de.nextId, nextSer := c.de.nextSer } }

/-- Histories that the discarded attempt changed go back to what they were (R359). -/
def undoHist (h : Tbl Nat) : List (Nat × Option Nat) → Tbl Nat
  | [] => h
  | (k, some v) :: t => undoHist (Tbl.set h k v) t
  | (k, none) :: t => undoHist (Tbl.erase h k) t

/-- REPLAY of the gang that a core leads. -/
def Dev.replay (d : Dev) (l : Nat) : Dev :=
  match d.job? l with
  | none => d
  | some j =>
    if j.state ≠ .replaySetup ∨ d.canHost j = false then d
    else
      let d := j.members.foldl (fun d n =>
        let d := ((d.release (agentDe n)).updCore n (fun c => c.restore)).setHosting n
        let d := d.setReg (Reg.CCn_DE_DONE n) (d.core n).chk.deDone
        d.trail n 0x05 noSlot 0 (d.core n).chk.next (d.codeTag l j (d.core n).chk.next)) d
      let d := { d with pm := { d.pm with hist := undoHist d.pm.hist j.phUndo } }
      let d := d.satReg Reg.STC_REPLAYS 1
      (d.setJob l { j with
        state := .running, inReplay := true, replays := j.replays + 1, fetch := (d.core l).chk.next, hold := false,
        miss := none, flags := j.chkFlags, heldFlags := [], skipCount := none,
        haltAt := j.haltAt.map (fun _ => (d.core l).chk.retired.toNat),
        phase := j.chkPhase.getD 0, phaseOn := j.chkPhase.isSome, phSum := 0, phCnt := 0, phUndo := [] }).tryStop l

def execReplay (leader : Fin 8) (s : State) := act s (fun d => d.replay leader.val)

/-! ### Debug commands (R125, R135, R139) -/

/-- The port owns the context that CCn_DBG_CONTEXT names. -/
def Dev.ownsDebug (d : Dev) (p : Port) (n : Nat) : Bool :=
  decide (d.owner 1 (d.fld (Reg.CCn_DBG_CONTEXT n) Fld.CCn_DBG_CONTEXT_CONTEXT) = some p)

/-- A debug command of a port to core n: ignored from a LOST port (R310), refused from a port that does not own the named context, without effect unless the
settings are in force. -/
def Dev.debugCmd (d : Dev) (p : Port) (n : Nat) (f : Nat → Job → Dev) : Dev :=
  if (d.port p).lost then d
  else if !d.ownsDebug p n then d.raise (Reg.CCn_DBG_STATUS n) Fld.CCn_DBG_STATUS_WR_REJECT
  else match d.jobOf n with
    | some (l, j) => if d.armed n j.ctx then f l j else d
    | none => d

/-- HALT: the gang stops before its next bundle issues. -/
def execHalt (p : Port) (core : Fin 8) (s : State) := act s (fun d =>
  d.debugCmd p core.val (fun l j =>
    if j.state = .debugHalt then d
    else
      let t := j.members.foldl (fun m n => Nat.max m ((d.core n).retired.toNat + (d.core n).inFlight)) 0
      (d.setJob l { j with haltAt := some t }).tryStop l))

/-- RESUME: the gang goes on with the halted bundle. -/
def execResume (p : Port) (core : Fin 8) (s : State) := act s (fun d =>
  d.debugCmd p core.val (fun l j =>
    if j.state ≠ .debugHalt then d
    else
      let bk := Fld.CCn_HALT_INFO_REASON.get (d.reg (Reg.CCn_HALT_INFO l)) = HaltReason.breakpoint.code
      let d := j.members.foldl (fun d n => d.updCore n (fun c => { c with halted := false })) d
      d.setJob l { j with
        state := .running, haltAt := none, skipBkpt := if bk then some (pcOf j.tagged j.fetch) else j.skipBkpt }))

/-- TRAIL_DROP: a stream-mode record that cannot be written is dropped and counted. -/
def execTrailDrop (core : Fin 8) (s : State) := act s (fun d =>
  let n := core.val
  match (d.core n).trailHeld with
  | [] => d
  | _ :: t =>
    (d.updCore n (fun c => { c with trailHeld := t, trailLost := c.trailLost + 1 })).addReg (Reg.CCn_TRAIL_DROPS n) 1)

end Sys2Proof.Machine
end

