-- ==== Sys2Proof/Machine/Queue.lean ====
section
/-! DEFINITION. The queue manager: semaphores, doorbells, entries, completions, event flags and deadlock (chapter 10). -/

namespace Sys2Proof.Machine

/-! ### Ports: state, messages, events (R285, Table 10.8) -/

/-- HPx_STATUS STATE (Table 10.8). -/
def PortSt.state (x : PortSt) : Nat := if x.attached then 2 else if x.lost then 3 else if x.linkUp then 1 else 0

def Dev.isLost (d : Dev) (p : Port) : Bool := decide ((d.port p).state = 3)

/-- An MSI-X message: none without a link and none while the port is LOST (R310). -/
def Dev.msix (d : Dev) (p : Port) (v : Nat) : Dev :=
  if (d.port p).linkUp && !d.isLost p then { d with out := .msix p v :: d.out } else d

/-- A port event: its bit is set, and an enabled event sends vector 0 (R285, Table 10.10). -/
def Dev.portEvent (d : Dev) (p : Port) (f : Fld) : Dev :=
  let d := d.raise (Reg.HPx_EVENT p.idx) f
  if bit (d.fld (Reg.HPx_EVENT_EN p.idx) Fld.HPx_EVENT_EN_EN) f.lo then d.msix p 0 else d

/-- Firmware runs: FW_STATUS reads RUNNING. -/
def Dev.fwRunning (d : Dev) : Bool := decide (d.fld Reg.FW_STATUS Fld.FW_STATUS_STATE = 3)

/-- The device is ACTIVE and has not been stopped by PREPARE_OFF (R366, R432). -/
def Dev.awake (d : Dev) : Bool := decide (d.pm.idle = 0) && !d.fw.stopped

/-- Bytes that the QM or firmware reads; a byte of an uncorrectable word is a free value. -/
def Dev.fwBytes (d : Dev) (a n : Nat) : List Byte :=
  (List.range n).map (fun (i : Nat) =>
    if (d.poisoned (a + i) 1).isSome then Config.freeByte d.ctr (a + i) else d.see agentFw (a + i))

/-! ### Semaphores (R286, R287) -/

/-- What a port reads from SEMn: MINE and OTHER. -/
def Dev.semWord (d : Dev) (p : Port) (n : Nat) : Word :=
  match (d.sem n).holder with
  | none => 0
  | some h => if h = p then 1 else 2

/-- A port takes a semaphore that is free. -/
def Dev.semTake (d : Dev) (p : Port) (n : Nat) : Dev :=
  match (d.sem n).holder with
  | some _ => d
  | none => { d with sems := Tbl.set d.sems n { holder := some p, lastB := decide (p = .b) } }

def Dev.semFree (d : Dev) (p : Port) (n : Nat) : Dev :=
  let x := d.sem n
  if x.holder = some p then { d with sems := Tbl.set d.sems n { x with holder := none } } else d

/-- SEM_READ: a read of SEMn; `both`: both ports read it in the same NCLK cycle. -/
def execSemRead (p : Port) (n : Fin 64) (both : Bool) (s : State) := act s (fun d =>
  let first : Port := if both then (if (d.sem n.val).lastB then .a else .b) else p
  let d := d.semTake first n.val
  let d := { d with out := .regData p (d.semWord p n.val) :: d.out }
  if both then { d with out := .regData p.other (d.semWord p.other n.val) :: d.out } else d)

/-- SEM_RELEASE: a write of SEMn. -/
def execSemRelease (p : Port) (n : Fin 64) (v : Word) (s : State) := act s (fun d =>
  if bit v.toNat 0 then d else d.semFree p n.val)

/-! ### Entries (R293 to R295) -/

/-- Word `i` of an entry. -/
def Entry.w (e : Entry) (i : Nat) : Nat := wordAt e.raw (4 * i)

def Entry.op (e : Entry) : Nat := bits (e.w 0) 0 8
def Entry.prio (e : Entry) : Nat := bits (e.w 0) 8 3
def Entry.serial (e : Entry) : Bool := bit (e.w 0) 11
def Entry.nwait (e : Entry) : Nat := bits (e.w 0) 12 3
def Entry.failset (e : Entry) : Bool := bit (e.w 0) 15
def Entry.nset (e : Entry) : Nat := bits (e.w 0) 16 3
def Entry.ctx (e : Entry) : Nat := bits (e.w 1) 0 10
def Entry.tag (e : Entry) : Nat := e.w 2
def Entry.timeout (e : Entry) : Nat := e.w 3
def Entry.deadline (e : Entry) : Option Nat := if bit (e.w 0) 19 then some (e.w 4 + e.w 5 * pow2 32) else none

/-- The waits: flag, and whether the start clears it. -/
def Entry.waits (e : Entry) : List (Nat × Bool) :=
  (List.range (Nat.min 4 e.nwait)).map (fun i => (bits (e.w (6 + i)) 0 18, bit (e.w (6 + i)) 18))

/-- The declared flags. -/
def Entry.sets (e : Entry) : List Nat := (List.range (Nat.min 4 e.nset)).map (fun i => bits (e.w (10 + i)) 0 18)

def Entry.istatEn (e : Entry) : Bool := bit (e.w 15) 27
def Entry.istatBind (e : Entry) : Nat := bits (e.w 15) 24 3
def Entry.istatOff (e : Entry) : Nat := bits (e.w 15) 0 24

/-- An unstarted entry whose completion is not decided. -/
def Entry.waiting (e : Entry) : Bool := !e.started && e.result.isNone

/-- The oldest unstarted entry (R299). -/
def Queue.head (x : Queue) : Option Entry := x.entries.find? (fun (e : Entry) => e.waiting)

/-- Queues 0 and 1 are the admin queues (R306). -/
def isAdmin (q : Nat) : Bool := decide (q < 2)

/-- A binding table entry (Table 10.2): KIND, STRIDE, BASE. -/
def Dev.binding (d : Dev) (c : Ctx) (i : Nat) : Nat × Nat × Nat :=
  let l := d.fwBytes (c.bind + 16 * i) 16
  (bits (wordAt l 0) 0 3, wordAt l 4, wordAt l 8 + bits (wordAt l 12) 0 16 * pow2 32)

/-- The address that binding `i` gives the member with logical index `l` on physical core `p` (R291). -/
def Dev.bindAddr (d : Dev) (c : Ctx) (i l p : Nat) : Nat :=
  let b := d.binding c i
  let x := match b.1 with
    | 1 => b.2.2
    | 2 => c.basket + b.2.2 % pow2 32
    | 3 => coreBase p + b.2.2 % pow2 24
    | 4 => b.2.2 + l * b.2.1
    | _ => 0
  x % pow2 48

/-- The form of a general entry is wrong (R295). -/
def Dev.badEntry (d : Dev) (e : Entry) : Bool :=
  let run := decide (e.op = 1)
  decide (e.op ≠ 1 ∧ e.op ≠ 2) || decide (4 < e.nwait) || decide (4 < e.nset) ||
  decide (bits (e.w 0) 20 12 ≠ 0) || decide (bits (e.w 1) 10 22 ≠ 0) || decide (bits (e.w 15) 28 4 ≠ 0) ||
  (List.range (Nat.min 4 e.nwait)).any (fun i => decide (bits (e.w (6 + i)) 19 13 ≠ 0)) ||
  (List.range (Nat.min 4 e.nset)).any (fun i => decide (bits (e.w (10 + i)) 18 14 ≠ 0)) ||
  (run && (match Tbl.find? d.ctxs e.ctx with
    | none => true
    | some c =>
      let k := (d.binding c e.istatBind).1
      e.istatEn && decide (k ≠ 1 ∧ k ≠ 2)))

/-- The parameters of the admin commands: the command word's reserved bits and bytes and the parameter bits each OP has, as
(byte offset, low bit, width) (Table 10.7). -/
def adminFields : Nat → Option (List (Nat × Nat × Nat))
  | 0x01 => some [(0x10, 0, 17), (0x14, 0, 5), (0x14, 8, 5), (0x14, 16, 11), (0x18, 0, 32), (0x1C, 0, 16),
      (0x20, 0, 32), (0x24, 0, 16), (0x28, 0, 32)]
  | 0x02 | 0x03 | 0x04 => some [(0x10, 0, 16)]
  | 0x05 => some [(0x10, 0, 16), (0x14, 0, 32)]
  | 0x10 => some [(0x10, 0, 10), (0x10, 16, 8), (0x18, 0, 32), (0x1C, 0, 16), (0x20, 0, 32), (0x28, 0, 32), (0x2C, 0, 16)]
  | 0x11 => some [(0x10, 0, 10)]
  | 0x18 => some [(0x10, 0, 20)]
  | 0x19 => some [(0x10, 0, 20), (0x10, 31, 1), (0x14, 0, 11)]
  | 0x30 | 0x33 | 0x34 | 0x35 => some []
  | 0x31 => some [(0x10, 0, 6)]
  | 0x32 | 0x37 => some [(0x10, 0, 32), (0x14, 0, 16), (0x18, 0, 32)]
  | 0x36 => some [(0x10, 0, 32), (0x14, 0, 32), (0x18, 0, 32), (0x1C, 0, 32), (0x20, 0, 32), (0x24, 0, 32), (0x28, 0, 32),
      (0x2C, 0, 32), (0x30, 0, 32), (0x34, 0, 16)]
  | _ => none

/-- The word of an admin entry at byte offset `o`, without the bits that its fields hold. -/
def leftOver (l : List (Nat × Nat × Nat)) (raw : List Byte) (o : Nat) : Nat :=
  (l.filter (fun (f : Nat × Nat × Nat) => f.1 = o)).foldl
    (fun (x : Nat) (f : Nat × Nat × Nat) => x - bits x f.2.1 f.2.2 * pow2 f.2.1) (wordAt raw o)

/-- An admin entry has an unassigned OP or a reserved field that is not 0 (R306, R307). -/
def badAdmin (raw : List Byte) : Bool :=
  match adminFields (byteAt raw 0) with
  | none => true
  | some l =>
    let l := (0, 0, 8) :: (8, 0, 32) :: l
    (List.range 16).any (fun i => decide (leftOver l raw (4 * i) ≠ 0))

/-- How many counts `b` lies beyond `a`, mod 2^32. -/
def countDist (a b : Word) : Nat := (b - a).toNat

/-- The order of the doorbell that made the entry of count `c` visible. -/
def Queue.seenAt (x : Queue) (c : Word) : Nat :=
  match x.bells.find? (fun (b : Word × Nat) => decide (0 < countDist c b.1 ∧ countDist c b.1 ≤ 65536)) with
  | some b => b.2
  | none => 0

/-- How the checks at consumption end an entry (R295, R306, R307), or a cut that covers it. The fields of an admin command are
judged when it is executed, after the owner of its object (R307). -/
def Dev.consumed (d : Dev) (q : Nat) (x : Queue) (e : Entry) : Option JobResult :=
  if isAdmin q then (if (adminFields e.op).isNone then some { status := stBadEntry, aux := 1 } else none)
  else match x.cut with
    | some (c, st) =>
      if 0 < countDist x.sqCons c ∧ countDist x.sqCons c ≤ 65536 then some { status := st }
      else if d.badEntry e then some { status := stBadEntry }
      else if e.op = 1 ∧ d.owner 1 e.ctx ≠ d.owner 0 q then some { status := stNotOwner }
      else none
    | none =>
      if d.badEntry e then some { status := stBadEntry }
      else if e.op = 1 ∧ d.owner 1 e.ctx ≠ d.owner 0 q then some { status := stNotOwner }
      else none

/-- The port whose loss makes the QM leave a queue's ring alone: an admin queue of a LOST port is not read (R310). -/
def Dev.ringShut (d : Dev) (q : Nat) : Bool :=
  isAdmin q && (match d.owner 0 q with
    | some p => !(d.port p).attached
    | none => true)

/-- ENTRY_CONSUME of queue q. -/
def execEntryConsume (q : Fin 65536) (s : State) := act s (fun d =>
  let q := q.val
  let x := d.queue q
  if !d.awake || d.ringShut q || x.sqCons = x.sqTail || (x.state = .free && !isAdmin q) then d
  else
    let a := x.sqBase + 64 * (x.sqCons.toNat % pow2 x.sqLog)
    let d := match d.poisoned a 64 with
      | some b => d.eccEvent none (addrUnit b) b
      | none => d
    let e : Entry := { count := x.sqCons.toNat, raw := d.fwBytes a 64, seen := x.seenAt x.sqCons }
    let r := d.consumed q x e
    let c := x.sqCons + 1
    (d.countRd a 64).updQueue q (fun x => { x with
      sqCons := c, entries := x.entries ++ [{ e with result := r }],
      cut := if x.cut.any (fun (y : Word × Nat) => y.1 = c) then none else x.cut,
      bells := x.bells.filter (fun (b : Word × Nat) => b.1 ≠ c) }))

/-! ### Doorbells (R296, R300) -/

/-- Why a doorbell is refused (R296). DESIGN CHOICE: of several cases the first here is the one recorded: a partial write has no
counts to judge, a FREE queue no owner and no rings, and of the rest the lowest code. -/
def Dev.doorbellCode (d : Dev) (p : Port) (q : Nat) (v : Dword) (whole : Bool) : Option Nat :=
  let x := d.queue q
  let tail : Word := v.setWidth 32
  let head : Word := (v >>> 32).setWidth 32
  if !whole then some 5
  else if x.state = .free ∧ isAdmin q = false then some 2
  else if d.isLost p ∨ d.owner 0 q ≠ some p then some 1
  else if pow2 x.sqLog < countDist x.sqCons tail then some 3
  else if pow2 x.cqLog < countDist head x.cqProd then some 4
  else none

/-- DOORBELL of queue q; `whole`: the write is one aligned 8-byte write. -/
def execDoorbell (p : Port) (q : Fin 65536) (v : Dword) (whole : Bool) (s : State) := act s (fun d =>
  let q := q.val
  if d.fw.stopped then d
  else match d.doorbellCode p q v whole with
    | some k =>
      let d := d.setReg (Reg.HPx_DB_ERR p.idx) (BitVec.ofNat 32 (q + k * pow2 16))
      (d.addReg (Reg.HPx_DB_ERRS p.idx) 1).portEvent p Fld.HPx_EVENT_DB_ERROR
    | none =>
      let tail : Word := v.setWidth 32
      let d := { d.release (agentHost p) with bells := d.bells + 1 }
      (d.updQueue q (fun x =>
        let old := x.bells.filter (fun (b : Word × Nat) => decide (countDist x.sqCons b.1 < countDist x.sqCons tail))
        { x with sqTail := tail, cqHead := (v >>> 32).setWidth 32,
                 bells := if tail = x.sqCons then old else old ++ [(tail, d.bells)] })).stir true)

/-! ### Gangs (R106, R107, R299, R330, R331, R333) -/

/-- Variant `i` of a Basket (Table 4.1): GANG, CODE_OFFSET, CODE_LENGTH, ENTRY. -/
structure Variant where
  gang  : Nat
  off   : Nat
  len   : Nat
  entry : Nat
  deriving DecidableEq, Repr

def Dev.variants (d : Dev) (c : Ctx) : List Variant :=
  let n := bits (wordAt (d.fwBytes (c.basket + 8) 4) 0) 0 3
  (List.range n).map (fun (i : Nat) =>
    let l := d.fwBytes (c.basket + 0x10 + 16 * i) 16
    { gang := byteAt l 0, off := wordAt l 4, len := wordAt l 8, entry := wordAt l 12 })

/-- The cores of the gang of size g that core `l` leads. -/
def gangCores (g l : Nat) : List Nat := (List.range g).map (fun i => l + i)

/-- A core hosts the logical work of its partner, which runs a job (R330, R332). -/
def Dev.hosting (d : Dev) (n : Nat) : Bool := (d.core (partner n)).gang.isSome && (d.core (partner n)).hostedLogic

/-- A gang that can form, busy or not (R107, R330, R331). -/
def Dev.gangCan (d : Dev) (c : Ctx) (g l : Nat) : Bool :=
  decide (0 < g ∧ l % g = 0 ∧ l + g ≤ 8) &&
  (gangCores g l).all (fun n => bit c.affinity n && !d.unavailable n) &&
  !(decide (g = 1) && d.logicFenced l)

/-- A gang that is free (R299, R333). -/
def Dev.gangFree (d : Dev) (c : Ctx) (g l : Nat) : Bool :=
  d.gangCan c g l &&
  (gangCores g l).all (fun n =>
    (d.core n).gang.isNone && !d.hosting n && (List.range 6).all (fun k => !(d.unit (6 * n + k)).unfence))

/-- Some gang can ever run a variant. -/
def Dev.canEver (d : Dev) (c : Ctx) : Bool :=
  (d.variants c).any (fun v => (List.range 8).any (fun l => d.gangCan c v.gang l))

/-- The variant of the largest gang that is free, with its leaders. -/
def Dev.bestVariant (d : Dev) (c : Ctx) : Option (Variant × List Nat) :=
  (d.variants c).foldl (fun (acc : Option (Variant × List Nat)) (v : Variant) =>
    let ls := (List.range 8).filter (fun l => d.gangFree c v.gang l)
    if ls.isEmpty then acc
    else match acc with
      | some (w, _) => if w.gang < v.gang then some (v, ls) else acc
      | none => some (v, ls)) none

/-! ### Starting entries (R299 to R302) -/

/-- Completion-ring slots that are neither unconsumed nor reserved (R299). -/
def Queue.freeSlots (x : Queue) : Nat :=
  pow2 x.cqLog - countDist x.cqHead x.cqProd - (x.entries.filter (fun (e : Entry) => e.started)).length

/-- The entry before an entry has completed. -/
def Queue.prevDone (x : Queue) (e : Entry) : Bool :=
  x.entries.all (fun (y : Entry) => decide (BitVec.ofNat 32 (y.count + 1) ≠ BitVec.ofNat 32 e.count) || y.result.isSome)

/-- The conditions of R299 that do not concern the gang. -/
def Dev.headReady (d : Dev) (x : Queue) (e : Entry) : Bool :=
  decide (x.state = .active) && e.waits.all (fun (w : Nat × Bool) => d.flag w.1) &&
  (!e.serial || x.prevDone e) && decide (0 < x.freeSlots)

/-- A head can start. -/
def Dev.canStart (d : Dev) (x : Queue) (e : Entry) : Bool :=
  d.headReady x e &&
  (decide (e.op ≠ 1) || (match Tbl.find? d.ctxs e.ctx with
    | some c => (d.bestVariant c).isSome
    | none => false))

/-- The order of R300. -/
def Entry.before (q1 : Nat) (e1 : Entry) (q2 : Nat) (e2 : Entry) : Bool :=
  if e1.prio ≠ e2.prio then decide (e1.prio < e2.prio)
  else
    let rest := if e1.seen ≠ e2.seen then decide (e1.seen < e2.seen) else decide (q1 < q2)
    match e1.deadline, e2.deadline with
    | some x, some y => if x ≠ y then decide (x < y) else rest
    | some _, none => true
    | none, some _ => false
    | none, none => rest

/-- No other head that can start comes before this one. -/
def Dev.isFirst (d : Dev) (q : Nat) (e : Entry) : Bool :=
  d.queues.all (fun (y : Nat × Queue) =>
    decide (y.1 = q) || isAdmin y.1 || (match y.2.head with
      | some f => !(d.canStart y.2 f && Entry.before y.1 f q e)
      | none => true))

/-- The input-status word matches (R302); a word that cannot be read is a free value. -/
def Dev.istatHit (d : Dev) (c : Ctx) (e : Entry) : Bool :=
  let a := (d.bindAddr c e.istatBind 0 0 + e.istatOff)
  let w := if (d.firstBad a 4).isSome then (Config.freeWord d.ctr a).toNat else wordAt (d.fwBytes a 4) 0
  e.istatEn && decide ((BitVec.ofNat 32 w &&& BitVec.ofNat 32 (e.w 14)) ≠ 0#32)

/-- A member's state at the start of a job (R119, R122, R133, R140, R207): its arrays and banks keep what they hold. -/
def Dev.startMember (d : Dev) (c : Ctx) (leader n entry : Nat) : Dev :=
  let a := (List.range 8).map (fun (i : Nat) => (i, BitVec.ofNat 48 (d.bindAddr c i (n - leader) n)))
  let k : Checkpoint := { next := entry, a := a }
  let d := d.updCore n (fun x => { x.leave false with
    gang := some leader, s := [], a := a, v := [], p := [], lc := [], loops := [], sticky := 0, layerCount := 0,
    retired := 0, next := entry, codebook := none, tb := [], stats := [], convFlags := 0, arg := [], chk := k,
    icache := [], stall := 0 })
  let clear := [Reg.CCn_HALT_INFO n, Reg.CCn_HALT_PC n, Reg.CCn_HALT_TAG n, Reg.CCn_HALT_AUX_LO n, Reg.CCn_HALT_AUX_HI n,
    Reg.CCn_HALT_RETIRED_LO n, Reg.CCn_HALT_RETIRED_HI n, Reg.CCn_DE_STATUS n, Reg.CCn_DE_DONE n, Reg.CCn_DE_FAULT_INFO n,
    Reg.CCn_DE_FAULT_DESC n, Reg.CCn_DE_FAULT_ADDR_LO n, Reg.CCn_DE_FAULT_ADDR_HI n, Reg.CCn_DE_FAULT_COOKIE n]
  clear.foldl (fun d r => d.setReg r 0) d

/-- NR of layer descriptor 0 (R141). -/
def Dev.firstNr (d : Dev) (c : Ctx) : Bool :=
  let l := d.fwBytes c.basket 16
  decide (bits (wordAt l 8) 8 16 ≠ 0) && bit (wordAt (d.fwBytes (c.basket + wordAt l 12) 4) 0) 0

/-- What starting a RUN reads of LPDDR6 (R208): the context's binding table, the Basket's header and variants with layer
descriptor 0's first word, and the input-status word. DESIGN CHOICE: each of them once. -/
def Dev.countStart (d : Dev) (e : Entry) (c : Ctx) : Dev :=
  let d := ((d.countRd c.bind 128).countRd c.basket (16 + 16 * (d.variants c).length))
  let d := d.countRd (c.basket + wordAt (d.fwBytes c.basket 16) 12) 4
  if e.istatEn then d.countRd (d.bindAddr c e.istatBind 0 0 + e.istatOff) 4 else d

/-- A job starts on a gang (R106, R107, R141). -/
def Dev.startJob (d : Dev) (q : Nat) (e : Entry) (c : Ctx) (v : Variant) (leader : Nat) : Dev :=
  let ms := gangCores v.gang leader
  let d := ms.foldl (fun d n => (d.startMember c leader n v.entry).setHosting n) d
  d.setJob leader {
    members := ms, ctx := e.ctx, queue := q, count := e.count, tag := BitVec.ofNat 32 e.tag, sets := e.sets
    code := c.basket + v.off, codeLen := v.len, tagged := bit (wordAt (d.fwBytes (c.basket + 4) 4) 0) 16
    fetch := v.entry, nr := d.firstNr c }

/-- Change the entry of a count. -/
def Dev.updEntry (d : Dev) (q count : Nat) (f : Entry → Entry) : Dev :=
  d.updQueue q (fun x => { x with entries := x.entries.map (fun (e : Entry) => if e.count = count then f e else e) })

/-- Firmware starts entries: it runs, holds nothing for a handover, and is not stopping (R409, R417, R432). -/
def Dev.maySchedule (d : Dev) : Bool := d.fwRunning && !d.handover && !d.fw.stopping && d.awake

/-- ENTRY_START of the head of queue q; a RUN on the gang that core `leader` leads. -/
def execEntryStart (q : Fin 65536) (leader : Fin 8) (s : State) := act s (fun d =>
  let q := q.val
  let x := d.queue q
  if !d.maySchedule || isAdmin q then d
  else match x.head with
    | none => d
    | some e =>
      let ctx := if e.op = 1 then Tbl.find? d.ctxs e.ctx else none
      if e.op = 1 && x.state = .active && (match ctx with
          | some c => !d.canEver c
          | none => true) then
        d.finish q e.count { status := stNoCapacity }
      else if !d.canStart x e || !d.isFirst q e then d
      else
        let go (d : Dev) : Dev := e.waits.foldl (fun d w => if w.2 then d.clrFlag w.1 else d) d
        if e.op = 2 then (go d).updEntry q e.count (fun e => { e with started := true, result := some { status := stDone } })
        else match ctx with
          | none => d
          | some c =>
            match d.bestVariant c with
            | none => d
            | some (v, ls) =>
              if !ls.contains leader.val then d
              else
                let hit := d.istatHit c e
                (((go d).updEntry q e.count (fun e => { e with started := true, degraded := hit })).startJob q e c v leader.val).countStart e c)

/-- The job that an entry runs. -/
def Dev.jobFor (d : Dev) (q count : Nat) : Option (Nat × Job) :=
  List.find? (fun (y : Nat × Job) => decide (y.2.queue = q ∧ y.2.count = count)) d.jobs

/-- The rank of an error in R298. -/
def errRank (st : Nat) : Nat :=
  if st = stUnrecovered then 0 else if st = stProgramHalt then 1 else if st = stCancelled then 2
  else if st = stTimeout then 3 else if st = stOrphan then 4 else 5

/-- The result of two that ranks first. -/
def JobResult.first (a : JobResult) : Option JobResult → JobResult
  | none => a
  | some b => if errRank b.status < errRank a.status then b else a

/-- An entry ends at once: a running gang stops, an unstarted entry never runs. -/
def Dev.stopEntry (d : Dev) (q count : Nat) (r : JobResult) : Dev :=
  match d.jobFor q count with
  | some (l, j) => d.endJob l (r.first j.stopAfter) false
  | none => d.finish q count r

/-- ENTRY_TIMEOUT: TIMEOUT_US has passed since the entry of this count became the head; a debug halt suspends it. -/
def execEntryTimeout (q : Fin 65536) (count : Word) (s : State) := act s (fun d =>
  let q := q.val
  let c := count.toNat
  match (d.queue q).entries.find? (fun (e : Entry) => decide (e.count = c) && e.result.isNone) with
  | none => d
  | some e =>
    let suspended := match d.jobFor q c with
      | some (_, j) => decide (j.state = .debugHalt)
      | none => false
    let timed := e.started || decide ((d.queue q).head = some e)
    if isAdmin q || e.timeout = 0 || suspended || !timed then d else d.stopEntry q c { status := stTimeout })

/-! ### Completions (R285, R297, R298, R303) -/

/-- The 32 bytes of a completion record (Table 10.4). -/
def completionRecord (st replays late phase tag count q aux btag : Nat) (time : Nat) : List Byte :=
  leBytes 4 (st + replays * pow2 16 + late * pow2 18 + phase * pow2 31) ++ leBytes 4 tag ++ leBytes 4 count ++ leBytes 4 q ++
  leBytes 4 aux ++ leBytes 4 btag ++ leBytes 8 time

/-- The queue's message after one more record (R285). -/
def Dev.countRecord (d : Dev) (q : Nat) : Dev :=
  let x := d.queue q
  match d.owner 0 q with
  | none => d
  | some p =>
    if isAdmin q ∨ (x.icCount = 0 ∧ x.icUsec = 0) then d.msix p (if isAdmin q then 0 else x.vector)
    else if x.icCount ≠ 0 ∧ x.icCount ≤ x.unsig + 1 then
      (d.updQueue q (fun x => { x with unsig := 0 })).msix p x.vector
    else d.updQueue q (fun x => { x with unsig := x.unsig + 1 })

/-- Write the record of an entry whose result is `r`, and count it. -/
def Dev.writeRecord (d : Dev) (q : Nat) (e : Entry) (r : JobResult) : Dev :=
  let x := d.queue q
  let st := if e.degraded ∧ (r.status = stDone ∨ r.status = stDoneReplayed) then stDoneDegraded else r.status
  let late := match e.deadline with
    | some t => !isAdmin q && decide (t < d.time.toNat)
    | none => false
  let c := x.cqProd.toNat
  let phase := 1 - c / pow2 x.cqLog % 2
  let rec_ := completionRecord st r.replays (b2n late) phase e.tag e.count q r.aux.toNat r.btag.toNat d.time.toNat
  ((d.storeNow (x.cqBase + 32 * (c % pow2 x.cqLog)) rec_).updQueue q (fun x => { x with
    cqProd := x.cqProd + 1, entries := x.entries.drop 1 })).countRecord q

/-- Deliver the completion of the queue's oldest pending entry (R303, R334). -/
def Dev.deliverDone (d : Dev) (q : Nat) : Dev :=
  let x := d.queue q
  match x.entries with
  | [] => d
  | e :: _ =>
    match e.result with
    | none => d
    | some r =>
      if !e.started ∧ x.freeSlots = 0 then d
      else
        let d := if isAdmin q = false ∧ (r.status < 0x100 ∨ e.failset = true) then
            (e.sets.foldl (fun d f => d.setFlag f) d).stir false
          else d
        d.writeRecord q e r

/-- COMPLETION_DELIVER of queue q. -/
def execCompletionDeliver (q : Fin 65536) (s : State) := act s (fun d =>
  if d.awake then d.deliverDone q.val else d)

/-- MSIX_TIMER: IC_USEC µs have passed since the first completion not yet signalled. -/
def execMsixTimer (q : Fin 65536) (s : State) := act s (fun d =>
  let x := d.queue q.val
  match d.owner 0 q.val with
  | none => d
  | some p =>
    if x.icUsec = 0 ∨ x.unsig = 0 then d
    else (d.updQueue q.val (fun x => { x with unsig := 0 })).msix p x.vector)

/-! ### Flags and deadlock (R304, R305) -/

/-- QM_FLAG_SET, with release semantics; a QM_FLAG_CLR of the same flag in the same NCLK cycle applies first (R289). -/
def execQmFlagSet (p : Port) (v : FlagSet) (s : State) := act s (fun d =>
  let f := bits v.value.toNat 0 18
  let d := if v.both then d.clrFlag f else d
  ((d.release (agentHost p)).setFlag f).stir true)

/-- QM_FLAG_CLR. -/
def execQmFlagClr (_p : Port) (v : Word) (s : State) := act s (fun d => d.clrFlag (bits v.toNat 0 18))

/-- The declared setters of a flag, as (queue, entry). -/
def Dev.setters (d : Dev) (f : Nat) : List (Nat × Entry) :=
  d.queues.foldl (fun (acc : List (Nat × Entry)) (y : Nat × Queue) =>
    if isAdmin y.1 then acc
    else acc ++ (y.2.entries.filter (fun (e : Entry) => e.sets.contains f)).map (fun (e : Entry) => (y.1, e))) []

/-- A set of queues whose heads are deadlocked (R305). -/
def Dev.deadlocked (d : Dev) (qs : List Nat) : Bool :=
  !qs.isEmpty && qs.all (fun q =>
    match (d.queue q).head with
    | none => false
    | some h =>
      !isAdmin q && h.waits.any (fun (w : Nat × Bool) =>
        let st := d.setters w.1
        !d.flag w.1 && !st.isEmpty && st.all (fun (y : Nat × Entry) => !y.2.started && qs.contains y.1)))

/-- DEADLOCK: a deadlocked set is found. -/
def execDeadlock (qs : List (Fin 65536)) (s : State) := act s (fun d =>
  let qs := qs.foldl (fun (l : List Nat) (q : Fin 65536) => insertNat q.val l) []
  if !d.fwRunning || !d.awake || !d.deadlocked qs then d
  else
    let d := d.addReg Reg.QM_DEADLOCKS 1
    qs.foldl (fun d q =>
      let d := match (d.queue q).head with
        | some h => d.finish q h.count { status := stDeadlock }
        | none => d
      let d := d.updQueue q (fun x => { x with state := .stopped, deadlocked := true })
      match d.owner 0 q with
      | some p => d.portEvent p Fld.HPx_EVENT_DEADLOCK
      | none => d) d)

end Sys2Proof.Machine
end

