-- ==== Sys2Proof/Machine/Camera.lean ====
section
/-! DEFINITION. Receivers, streams and frames, parameter sets, sensor buses and memory jobs (chapter 8). -/

namespace Sys2Proof.Machine

/-! ### State -/

def Dev.updMed (d : Dev) (f : Media → Media) : Dev := { d with med := f d.med }
def Dev.str (d : Dev) (n : Nat) : CamStr := Tbl.getD d.med.str n {}
def Dev.setStr (d : Dev) (n : Nat) (x : CamStr) : Dev := d.updMed (fun m => { m with str := Tbl.set m.str n x })
def Dev.updStr (d : Dev) (n : Nat) (f : CamStr → CamStr) : Dev := d.setStr n (f (d.str n))

/-- Change element `i` of a list. -/
def updNth {α : Type} (f : α → α) : Nat → List α → List α
  | _, [] => []
  | 0, x :: t => f x :: t
  | i + 1, x :: t => x :: updNth f i t

/-- Fields of the stream descriptor (Table 8.3). -/
def dPort (l : List Byte) : Nat := fldAt l 0 0 5
def dVc (l : List Byte) : Nat := fldAt l 0 5 4
def dDt (l : List Byte) : Nat := fldAt l 0 9 6
def dDest (l : List Byte) : Nat := fldAt l 0 15 2
def dPipe (l : List Byte) : Nat := fldAt l 0 17 2
def dExps (l : List Byte) : Nat := fldAt l 0 19 2
def dUnpack (l : List Byte) : Bool := bit (wordAt l 0) 21
def dW (l : List Byte) : Nat := fldAt l 4 0 16
def dH (l : List Byte) : Nat := fldAt l 4 16 16
def dPeriod (l : List Byte) : Nat := wordAt l 8
def dMargin (l : List Byte) : Nat := wordAt l 0xC
def dBus (l : List Byte) : Nat := fldAt l 0x10 0 4
def dSaddr (l : List Byte) : Nat := fldAt l 0x10 4 7
def dDe (l : List Byte) : Nat := fldAt l 0x10 11 3
def dDg (l : List Byte) : Nat := fldAt l 0x10 14 3
def dFill (l : List Byte) : Nat := fldAt l 0x14 0 16
def dInit (l : List Byte) : Nat := fldAt l 0x14 16 16
def dNbuf (l : List Byte) : Nat := fldAt l 0x18 0 4
def dNstat (l : List Byte) : Nat := fldAt l 0x18 8 8
def dFlag (l : List Byte) : Nat := fldAt l 0x1C 0 18

/-- Bits per pixel of a data type (Table 8.2). -/
def dtBits (dt : Nat) : Nat :=
  if dt = 0x1E then 16 else if dt = 0x24 then 24 else if dt = 0x2B then 10 else if dt = 0x2C then 12
  else if dt = 0x2D then 14 else if dt = 0x2E then 16 else if dt = 0x2F then 20 else 8

/-- RAW8 to RAW20. -/
def dtRaw (dt : Nat) : Bool := decide (0x2A ≤ dt ∧ dt ≤ 0x2F)

/-- An accepted long-packet type (R229). -/
def dtLong (dt : Nat) : Bool := decide (dt = 0x12 ∨ dt = 0x1E ∨ dt = 0x24 ∨ (0x30 ≤ dt ∧ dt ≤ 0x37)) || dtRaw dt

/-- Bits of Table 8.4. -/
def ffSHORT : Nat := 0
def ffLONG : Nat := 1
def ffTRUNCATED : Nat := 2
def ffDEGRADED : Nat := 3
def ffHDR_DROP : Nat := 4
def ffLINE_LEN : Nat := 5
def ffPARTIAL : Nat := 6
def ffNO_BUFFER : Nat := 7
def ffFIRST : Nat := 8
def ffTNR_OFF : Nat := 9
def ffSENSOR_LATE : Nat := 10
def ffSENSOR_ERR : Nat := 11
def ffSENSOR_UNSURE : Nat := 12
def ffLATE_BEFORE : Nat := 13

def flagIf (w : Word) (b : Bool) (i : Nat) : Word := if b then w ||| BitVec.ofNat 32 (pow2 i) else w
def OFrame.mark (f : OFrame) (i : Nat) : OFrame := { f with flags := flagIf f.flags true i }
def OFrame.has (f : OFrame) (i : Nat) : Bool := bit f.flags.toNat i

/-! ### Receivers (R226, R228, R229, R236) -/

/-- A port exists in its receiver's mode. -/
def Dev.portExists (d : Dev) (p : Nat) : Bool :=
  let m := d.fld (Reg.CAM_CSIi_CFG (p / 2)) Fld.CAM_CSIi_CFG_MODE
  decide (m = 2 ∨ m = 4) || (decide (m = 1 ∨ m = 3) && p % 2 = 0)

/-- SYNC_A or SYNC_B of a port. -/
def syncFld (p : Nat) : Fld := if p % 2 = 0 then Fld.CAM_CSIi_STATUS_SYNC_A else Fld.CAM_CSIi_STATUS_SYNC_B

/-- Packets of the port are received: it exists and is in sync. -/
def Dev.receives (d : Dev) (p : Nat) : Bool := d.portExists p && decide (d.fld (Reg.CAM_CSIi_STATUS (p / 2)) (syncFld p) = 1)

/-- A header that its ECC corrected is counted. -/
def Dev.headerOk (d : Dev) (p : Nat) (corr : Bool) : Dev := if corr then d.addReg (Reg.CAM_CSIi_HDR_CORR (p / 2)) 1 else d

def Dev.unmatched (d : Dev) (p : Nat) : Dev := d.addReg (Reg.CAM_CSIi_UNMATCHED (p / 2)) 1

/-- START_OF_TRANSMISSION on a port's lanes. -/
def execStartOfTransmission (p : Fin 24) (s : State) := act s (fun d =>
  if d.portExists p then d.raise (Reg.CAM_CSIi_STATUS (p.val / 2)) (syncFld p.val) else d)

/-- DESKEW of receiver i. -/
def execDeskew (i : Fin 12) (s : State) := act s (fun d =>
  let c := d.reg (Reg.CAM_CSIi_CFG i)
  let m := Fld.CAM_CSIi_CFG_MODE.get c
  if (m = 1 ∨ m = 2) ∧ Fld.CAM_CSIi_CFG_DESKEW.get c = 1 then
    d.raise (Reg.CAM_CSIi_STATUS i) Fld.CAM_CSIi_STATUS_DESKEW_DONE else d)

/-! ### Claims (R230, R232) -/

def claims (l : List Byte) (p vc : Nat) : Bool :=
  decide (dPort l = p ∧ dVc l ≤ vc ∧ vc < dVc l + dExps l)

/-- Streams whose settings in force claim a port and virtual channel. -/
def Dev.claimed (d : Dev) (p vc : Nat) : List Nat :=
  (List.range 32).filter (fun n => (d.str n).on && claims (d.str n).desc p vc)

/-- A frame start of exposure 0 of the settings `l`. -/
def starts (l : List Byte) (p vc : Nat) : Bool := decide (dPort l = p ∧ dVc l = vc)

/-- A frame start is the stream's next one by the settings that wait for it. -/
def CamStr.startsNext (x : CamStr) (p vc : Nat) : Bool := x.next.any (fun y => y.en && starts y.desc p vc)

/-- Streams that claim a frame start: by their settings in force, or by those that it brings into force. -/
def Dev.claimedStart (d : Dev) (p vc : Nat) : List Nat :=
  (List.range 32).filter (fun n => ((d.str n).on && claims (d.str n).desc p vc) || (d.str n).startsNext p vc)

/-- A stream is enabled: by the settings that its next frame start takes. -/
def CamStr.enabled (x : CamStr) : Bool :=
  match x.next with
  | some y => y.en
  | none => x.on

/-- A read of a 32-bit count or word by an engine. -/
def Dev.readCount (d : Dev) (ag : Agent) (a : Nat) : Word :=
  if (d.firstBad a 4).isSome then Config.freeWord d.ctr a
  else BitVec.ofNat 32 (leNat ((List.range 4).map (fun (i : Nat) =>
    if (d.poisoned (a + i) 1).isSome then Config.freeByte d.ctr (a + i) else d.see ag (a + i))))

/-- A structure that an engine reads; bytes that cannot be read are free values. -/
def Dev.readStruct (d : Dev) (ag : Agent) (a n : Nat) : List Byte :=
  (List.range n).map (fun (i : Nat) =>
    if (d.firstBad (a + i) 1).isSome ∨ (d.poisoned (a + i) 1).isSome then Config.freeByte d.ctr (a + i) else d.see ag (a + i))

/-- What an engine reads of LPDDR6 for a piece of its work, counted (R208): which bytes it reads and how often the spec does
not say, so that their number is free. -/
def Dev.engineReads (d : Dev) : Dev :=
  d.add64 Reg.MC_RD_BYTES_LO Reg.MC_RD_BYTES_HI (32 * (Config.freeWord d.ctr 710).toNat)

/-- A write of an engine: nothing is written where a byte of it is not usable memory (R18, R442). -/
def Dev.engineStore (d : Dev) (ag : Agent) (a : Nat) (l : List Byte) : Dev :=
  if (d.firstBad a l.length).isSome then d else d.store ag a l

/-- The settings of a stream take effect: an enable starts it afresh (R232, R245, R258). DESIGN CHOICE: where NBUF has become
smaller than the next buffer's number the ring goes on at buffer 0. -/
def Dev.beginStream (d : Dev) (n : Nat) (x : StrNext) : Dev :=
  let l := x.desc
  if !x.en then d.updStr n (fun s => { s with on := false, next := none, desc := l })
  else if !x.fresh then
    d.updStr n (fun s => { s with on := true, next := none, desc := l, nextBuf := if s.nextBuf < dNbuf l then s.nextBuf else 0 })
  else
    let ag := agentStream n
    let init := d.readStruct ag (addrAt l 0x60) 8192
    let old := d.str n
    let seeds : CamHist :=
      { avgY := BitVec.ofNat 32 (wordAt l 0x68), avgRg := BitVec.ofNat 32 (wordAt l 0x6C), avgBg := BitVec.ofNat 32 (wordAt l 0x70) }
    let d := d.setStr n { old with
      on := true, desc := l, next := none, begun := false, lateBefore := false, unsure := 0, lastTarget := none, sets := [],
      due := [], doubts := [], block := init, ispPs := dInit l, expPs := dInit l, gainPs := dInit l, nextBuf := 0, bufs := [],
      deadline := x.at_.toNat + 4 * dPeriod l + dMargin l, gen := old.gen + 1, hist := Tbl.set old.hist (old.gen + 1) seeds }
    let d := d.setReg (Reg.CAM_STRn_FRAME n) 0
    let d := d.setReg (Reg.CAM_STRn_PS_IN_FORCE n) (BitVec.ofNat 32 (dInit l))
    d.setReg (Reg.CAM_STRn_PS_CONS n) (d.readCount ag (addrAt l 0x50))

/-- A commit that has waited for the stream's frame start takes effect. -/
def Dev.applyNext (d : Dev) (n : Nat) : Dev :=
  match (d.str n).next with
  | some x => d.beginStream n x
  | none => d

/-! ### Lines (R235, R237, R242, R244) -/

/-- Pixel codes of a line: what arrived, then FILL. -/
def lineCodes (l : List Byte) (wire : List Byte) : List Nat :=
  let b := dtBits (dDt l)
  (List.range (dW l)).map (fun (i : Nat) =>
    (if i < 8 * wire.length / b then Config.csiPixel (dDt l) wire i else dFill l) % pow2 b)

/-- A raw line as it is written (R231). -/
def rawLine (l : List Byte) (wire : List Byte) : List Byte :=
  let b := dtBits (dDt l)
  if dUnpack l then
    (lineCodes l wire).foldr (fun (c : Nat) (acc : List Byte) => leBytes (if dDt l = 0x2F then 4 else 2) c ++ acc) []
  else if 8 * wire.length / b = dW l then wire.take (ceilDiv (dW l * b) 8)
  else (List.range (ceilDiv (dW l * b) 8)).map (fun (i : Nat) => Config.csiByte (dDt l) (dW l) (dFill l) wire i)

/-- One line of exposure `e`, in the frame's buffer and in the pipe; `full`: the pipe's input buffer is full. -/
def Dev.putLine (d : Dev) (n : Nat) (f : OFrame) (e : Nat) (wire : List Byte) (arrived full : Bool) : Dev × OFrame :=
  let l := f.desc
  let k := (f.exps.getD e {}).n
  let d := match f.buf with
    | some b =>
      if dDest l = 1 then d
      else d.engineStore (agentStream n)
        (addrAt l 0x30 + b * wordAt l 0x38 + (e * dH l + k) * fldAt l 0x3C 0 24) (rawLine l wire)
    | none => d
  let toPipe := decide (dDest l ≠ 0) && !f.cut
  let cut := toPipe && full
  let d := if cut then d.addReg (Reg.ISPm_OVERFLOWS (dPipe l)) 1
    else if toPipe then d.add64 (Reg.ISPm_PIXELS_LO (dPipe l)) (Reg.ISPm_PIXELS_HI (dPipe l)) (dW l) else d
  let take := toPipe && !full
  let f := { f with
    cut := f.cut || cut, flags := flagIf f.flags cut ffTRUNCATED
    exps := updNth (fun (x : OExp) => { x with
      n := x.n + 1, got := x.got + b2n arrived, begun := true, closed := decide (dH l ≤ x.n + 1)
      rows := if take then x.rows ++ [(lineCodes l wire).map (fun (c : Nat) => c * pow2 (20 - dtBits (dDt l)))] else x.rows }) e f.exps }
  (d, f)

/-- Fill lines up to HEIGHT. -/
def Dev.fillExp (d : Dev) (n : Nat) (f : OFrame) (e : Nat) : Nat → Dev × OFrame
  | 0 => (d, f)
  | k + 1 =>
    let r := d.putLine n f e [] false false
    r.1.fillExp n r.2 e k

/-- An exposure closes: it is filled to HEIGHT where lines are missing. -/
def Dev.closeExp (d : Dev) (n : Nat) (f : OFrame) (e : Nat) : Dev × OFrame :=
  let x := f.exps.getD e {}
  if x.closed then (d, f)
  else
    let r := d.fillExp n (f.mark ffSHORT) e (dH f.desc - x.n)
    (r.1, { r.2 with exps := updNth (fun (y : OExp) => { y with closed := true }) e r.2.exps })

/-- Put a frame back: one whose exposures have all closed is closed. -/
def Dev.putFrame (d : Dev) (n : Nat) (f : OFrame) : Dev :=
  if f.exps.all (fun (x : OExp) => x.closed) then
    let f := { f with endT := d.time }
    let f := if f.has ffSHORT || f.has ffLONG || f.has ffTRUNCATED then f.mark ffPARTIAL else f
    d.updStr n (fun s => { s with cur := none, closed := s.closed ++ [f] })
  else d.updStr n (fun s => { s with cur := some f })

/-- Every open exposure of the stream's frame closes. -/
def Dev.closeFrame (d : Dev) (n : Nat) : Dev :=
  match (d.str n).cur with
  | none => d
  | some f =>
    let r := (List.range f.exps.length).foldl (fun (r : Dev × OFrame) (e : Nat) => r.1.closeExp n r.2 e) (d, f)
    r.1.putFrame n r.2

/-! ### Parameter sets (R247 to R249, R251) -/

/-- One entry of a sensor write list (Table 8.9): group, and the write. -/
def slistEntry (l : List Byte) (saddr i : Nat) : Bool × SensorWrite :=
  let k := fldAt l (8 * i) 16 2
  let n := if k = 0 then 1 else if k = 1 then 2 else 4
  (bit (wordAt l (8 * i)) 18,
   { dev := saddr, reg := fldAt l (8 * i) 0 16, data := wordAt l (8 * i + 4) % pow2 (8 * n), regBytes := 2, dataBytes := n })

/-- What an entry of the parameter-set ring says, unless it is a BAD_ENTRY. -/
def Dev.readSet (d : Dev) (n : Nat) (l raw : List Byte) : Option PSet :=
  let ag := agentStream n
  let isp := bit (wordAt raw 4) 16
  let sen := bit (wordAt raw 4) 17
  let param := addrAt raw 8
  let slist := addrAt raw 0x10
  let cnt := fldAt raw 0x18 0 8
  let stray := strayBits raw 8 ([(0, 0, 32), (4, 0, 18), (0x18, 0, 8)] ++ addrField 8 ++ addrField 0x10)
  let absent := (!isp && decide (param ≠ 0)) || (!sen && decide (slist ≠ 0 ∨ cnt ≠ 0)) || (!isp && !sen)
  let block := d.readStruct ag param 8192
  let badIsp := isp && (decide (param % 64 ≠ 0) || (d.firstBad param 8192).isSome ||
    paramBad block (dW l) (dH l) (dExps l) || outTooBig block (fldAt l 0x2C 0 24) (wordAt l 0x28))
  let list := d.readStruct ag slist (8 * cnt)
  let badSen := sen && (decide (dBus l = 15 ∨ slist % 8 ≠ 0 ∨ cnt = 0 ∨ 64 < cnt) || (d.firstBad slist (8 * cnt)).isSome ||
    (List.range cnt).any (fun i => decide (fldAt list (8 * i) 16 2 = 3 ∨ fldAt list (8 * i) 19 13 ≠ 0)))
  if stray || absent || badIsp || badSen || fldAt raw 4 0 16 = 0 then none
  else
    let ws := if sen then (List.range cnt).map (fun i => slistEntry list (dSaddr l) i) else []
    let group (g : Bool) : List SensorWrite := (ws.filter (fun (w : Bool × SensorWrite) => w.1 = g)).map (·.2)
    some { target := wordAt raw 0, id := fldAt raw 4 0 16, param := if isp then some param else none
           expW := group false, gainW := group true }

/-- The due frame of a set (R249). -/
def PSet.due (x : PSet) (l : List Byte) : Int :=
  let de := if x.expW.isEmpty then 0 else dDe l
  let dg := if x.gainW.isEmpty then 0 else dDg l
  (x.target : Int) - (Nat.max de (Nat.max dg 1) : Nat)

/-- Examine at most `k` entries at the start of frame `f`. -/
def Dev.examine (d : Dev) (n f : Nat) : Nat → Dev
  | 0 => d
  | k + 1 =>
    let x := d.str n
    let l := x.desc
    let c := (d.reg (Reg.CAM_STRn_PS_CONS n)).toNat
    let a := addrAt l 0x48 + 32 * (c % 16)
    let set := d.readSet n l (d.readStruct (agentStream n) a 32)
    let status : Option Nat := match set with
      | none => some 4
      | some y =>
        if x.lastTarget.any (fun (t : Nat) => decide (y.target ≤ t)) then some 3
        else if (f : Int) < y.due l then none
        else if (f : Int) = y.due l then some 1 else some 2
    match status with
    | none => d
    | some st =>
      let d := ((d.engineStore (agentStream n) (a + 0x1C) (leBytes 1 st)).release (agentStream n)).addReg (Reg.CAM_STRn_PS_CONS n) 1
      let d := match set with
        | some y => if st = 1 then d.updStr n (fun s => { s with lastTarget := some y.target, sets := s.sets ++ [y] }) else d
        | none => d
      d.examine n f k

/-- The examination at a frame start (R247). -/
def Dev.examineHead (d : Dev) (n f : Nat) : Dev :=
  let gap := (d.readCount (agentStream n) (addrAt (d.str n).desc 0x50) - d.reg (Reg.CAM_STRn_PS_CONS n)).toNat
  let d := if 16 < gap then d.raise (Reg.CAM_STRn_STATUS n) Fld.CAM_STRn_STATUS_PS_OVERRUN else d
  d.examine n f (Nat.min 16 gap)

/-- Fetch the parameter block of a set. -/
def Dev.fetchSet (d : Dev) (n : Nat) (x : PSet) : PSet :=
  match x.param, x.block with
  | some a, none => { x with block := some (d.readStruct (agentStream n) a 8192) }
  | _, _ => x

/-- ISP_PARAM_FETCH of stream n: during frame T − 1. -/
def execIspParamFetch (n : Fin 32) (s : State) := act s (fun d =>
  let f := (d.reg (Reg.CAM_STRn_FRAME n)).toNat
  if (d.str n).on && (d.str n).begun then
    d.updStr n (fun s => { s with sets := s.sets.map (fun (x : PSet) => if x.target = f + 1 then d.fetchSet n x else x) })
  else d)

/-- The sets whose target is frame `f` take effect. -/
def Dev.latchSets (d : Dev) (n f : Nat) : Dev :=
  let s := d.str n
  let s := s.sets.foldl (fun (s : CamStr) (x : PSet) =>
    if x.target = f then
      let y := d.fetchSet n x
      let s := match y.block with
        | some b => { s with block := b, ispPs := x.id }
        | none => s
      let s := if x.expW.isEmpty then s else { s with expPs := x.id }
      if x.gainW.isEmpty then s else { s with gainPs := x.id }
    else s) s
  let d := d.setStr n { s with sets := s.sets.filter (fun (x : PSet) => decide (f < x.target)) }
  d.setReg (Reg.CAM_STRn_PS_IN_FORCE n) (BitVec.ofNat 32 s.ispPs)

/-- The batches whose issue frame is `f` (R250). -/
def Dev.issueBatches (d : Dev) (n f : Nat) : Dev :=
  let s := d.str n
  let l := s.desc
  let mk (x : PSet) (g : Bool) : SBatch :=
    { stream := n, target := x.target, issue := f, stamp := d.time, gain := g, bus := dBus l, writes := if g then x.gainW else x.expW }
  let exp := (s.sets.filter (fun (x : PSet) => !x.expW.isEmpty && x.target = f + dDe l)).map (fun x => mk x false)
  let gain := (s.sets.filter (fun (x : PSet) => !x.gainW.isEmpty && x.target = f + dDg l)).map (fun x => mk x true)
  d.updStr n (fun s => { s with due := s.due ++ exp ++ gain })

/-! ### Frame starts and ends (R234, R235, R238, R244) -/

/-- The next buffer in ring order is free (R244). -/
def ringFree (bufs : Tbl Nat) (b : Nat) (release : Word) : Bool :=
  match Tbl.find? bufs b with
  | none => true
  | some f => decide ((release - BitVec.ofNat 32 f).toNat < pow2 31)

/-- A frame of stream n opens. -/
def Dev.openFrame (d : Dev) (n : Nat) (fn : BitVec 16) : Dev :=
  let s := d.str n
  let l := s.desc
  let f := if s.begun then wrap32 ((d.reg (Reg.CAM_STRn_FRAME n)).toNat + 1) else 0
  let first := !s.begun
  let d := d.setReg (Reg.CAM_STRn_FRAME n) (BitVec.ofNat 32 f)
  let d := d.setStr n { s with begun := true, deadline := d.time.toNat + dPeriod l + dMargin l, lateBefore := false, unsure := s.unsure - 1 }
  let d := d.latchSets n f
  let d := d.examineHead n f
  let d := d.issueBatches n f
  let free := ringFree s.bufs s.nextBuf (d.readCount (agentStream n) (addrAt l 0x58))
  let fl : Word := Tbl.getD s.doubts f 0
  let fl := flagIf (flagIf (flagIf (flagIf fl (!free) ffNO_BUFFER) first ffFIRST) (decide (0 < s.unsure)) ffSENSOR_UNSURE) s.lateBefore ffLATE_BEFORE
  let d := if free then d else d.addReg (Reg.CAM_STRn_DROPPED n) 1
  let t := d.str n
  let fr : OFrame :=
    { desc := l, frame := f, sensor := fn, start := d.time, buf := if free then some s.nextBuf else none, flags := fl
      exps := updNth (fun (x : OExp) => { x with begun := true }) 0 (List.replicate (dExps l) {})
      block := t.block, ispPs := t.ispPs, expPs := t.expPs, gainPs := t.gainPs, gen := t.gen }
  d.setStr n { t with
    cur := some fr, doubts := Tbl.erase t.doubts f
    nextBuf := if free then (s.nextBuf + 1) % Nat.max 1 (dNbuf l) else s.nextBuf
    bufs := if free then Tbl.set s.bufs s.nextBuf f else s.bufs }

/-- A frame start reaches stream n. -/
def Dev.frameStart (d : Dev) (n p vc : Nat) (fn : BitVec 16) : Dev :=
  let s := d.str n
  if (s.on && starts s.desc p vc) || s.startsNext p vc then
    let d := (d.closeFrame n).applyNext n
    let s := d.str n
    if s.on && starts s.desc p vc then d.openFrame n fn else d
  else match s.cur with
    | none => d
    | some f =>
      let e := vc - dVc f.desc
      if (f.exps.getD e {}).begun then
        let r := d.closeExp n f e
        r.1.putFrame n r.2
      else d.putFrame n { f with exps := updNth (fun (x : OExp) => { x with begun := true }) e f.exps }

/-- FRAME_START: a frame-start packet of a port and virtual channel; `fn` is the frame number that the sensor sent. One whose
streams a commit has just disabled or moved away is claimed by none (R230). -/
def execFrameStart (p : Fin 24) (vc : Fin 16) (fn : BitVec 16) (corr : Bool) (s : State) := act s (fun d =>
  if !d.receives p then d
  else
    let d := d.headerOk p corr
    let ns := d.claimedStart p vc
    let d := ns.foldl (fun d n => d.frameStart n p vc fn) d
    if (d.claimed p vc).isEmpty then d.unmatched p else d)

/-- A frame end reaches stream n. -/
def Dev.frameEnd (d : Dev) (n vc : Nat) : Dev :=
  let s := d.str n
  match s.cur with
  | some f =>
    let e := vc - dVc f.desc
    let r := d.closeExp n f e
    r.1.putFrame n { r.2 with exps := updNth (fun (x : OExp) => { x with ended := true }) e r.2.exps }
  | none => d.setStr n { s with closed := s.closed.map (fun (f : OFrame) =>
      { f with exps := updNth (fun (x : OExp) => { x with ended := true }) (vc - dVc f.desc) f.exps }) }

/-- FRAME_END. -/
def execFrameEnd (p : Fin 24) (vc : Fin 16) (corr : Bool) (s : State) := act s (fun d =>
  if !d.receives p then d
  else
    let d := d.headerOk p corr
    let ns := d.claimed p vc
    if ns.isEmpty then d.unmatched p else ns.foldl (fun d n => d.frameEnd n vc) d)

/-- A frame that takes a line whose payload CRC fails (R236). -/
def OFrame.crc (f : OFrame) (bad : Bool) : OFrame := if bad then { f.mark ffDEGRADED with crcErr := f.crcErr + 1 } else f

/-- A line without an open frame: an orphan (R235, R252), unless it is a line beyond HEIGHT of a frame that has neither
completed nor had its frame end. -/
def Dev.lineAlone (d : Dev) (n vc : Nat) (crc : Bool) : Dev :=
  let s := d.str n
  match s.closed.getLast? with
  | some f =>
    if (f.exps.getD (vc - dVc f.desc) {}).ended then
      (d.setStr n { s with unsure := 7 }).addReg (Reg.CAM_STRn_ORPHAN n) 1
    else d.setStr n { s with closed := s.closed.dropLast ++ [((f.crc crc).mark ffLONG).mark ffPARTIAL] }
  | none => (d.setStr n { s with unsure := 7 }).addReg (Reg.CAM_STRn_ORPHAN n) 1

/-- A line of exposure `e` puts the exposures of a frame further apart than the merge stage's 64 lines, and so fills the input
buffer (R243). -/
def OFrame.apart (f : OFrame) (e : Nat) : Bool :=
  let at_ (i : Nat) : Nat := (f.exps.getD i {}).n + b2n (decide (i = e))
  (List.range f.exps.length).any (fun i => decide (64 < absDiff (at_ 0) (at_ i)))

/-- A line reaches stream n. -/
def Dev.line (d : Dev) (n vc : Nat) (wire : List Byte) (crc full : Bool) : Dev :=
  match (d.str n).cur with
  | none => d.lineAlone n vc crc
  | some f =>
    let e := vc - dVc f.desc
    let f := f.crc crc
    if (f.exps.getD e {}).closed then d.putFrame n (f.mark ffLONG)
    else
      let f := if 8 * wire.length / dtBits (dDt f.desc) = dW f.desc then f else f.mark ffLINE_LEN
      let r := d.putLine n f e wire true (full || f.apart e)
      r.1.putFrame n r.2

/-- LINE_PACKET: a long packet; `crc`: its payload CRC fails; `full`: the pipe's input buffer is full. -/
def execLinePacket (p : Fin 24) (vc : Fin 16) (dt : Fin 64) (wire : List Byte) (crc corr full : Bool) (s : State) := act s (fun d =>
  if !d.receives p then d
  else
    let d := d.headerOk p corr
    let d := if crc then d.addReg (Reg.CAM_CSIi_CRC_ERR (p.val / 2)) 1 else d
    let ns := (d.claimed p vc).filter (fun n => dDt (d.str n).desc = dt.val)
    if !dtLong dt || ns.isEmpty then d.unmatched p else ns.foldl (fun d n => d.line n vc wire crc full) d)

/-- UNMATCHED_PACKET: of a type that is not accepted, or that no enabled stream claims. -/
def execUnmatchedPacket (p : Fin 24) (vc : Fin 16) (dt : Fin 64) (corr : Bool) (s : State) := act s (fun d =>
  if !d.receives p then d
  else
    let d := d.headerOk p corr
    let long := dtLong dt && (d.claimed p vc).any (fun n => dDt (d.str n).desc = dt.val)
    let short := decide (dt.val ≤ 1) && !(d.claimed p vc).isEmpty
    if long || short || dt = 2 || dt = 3 then d else d.unmatched p)

/-- HEADER_ERROR: the packet is discarded and the receiver resynchronises. -/
def execHeaderError (p : Fin 24) (s : State) := act s (fun d =>
  if !d.receives p then d
  else
    let d := d.addReg (Reg.CAM_CSIi_HDR_DROP (p.val / 2)) 1
    let d := d.setFld (Reg.CAM_CSIi_STATUS (p.val / 2)) (syncFld p.val) 0
    (List.range 32).foldl (fun d n =>
      match (d.str n).cur with
      | some f => if dPort f.desc = p.val then
          d.updStr n (fun s => { s with cur := some { f.mark ffHDR_DROP with hdrErr := f.hdrErr + 1 } }) else d
      | none => d) d)

/-- The event of a stream for the owner of its port (Table 10.10 CAM). -/
def Dev.camEvent (d : Dev) (port : Nat) : Dev :=
  match d.owner 2 port with
  | some p => d.portEvent p Fld.HPx_EVENT_CAM
  | none => d

/-- FRAME_LATE of stream n. -/
def execFrameLate (n : Fin 32) (s : State) := act s (fun d =>
  let x := d.str n
  if !x.on || dPeriod x.desc = 0 || d.time.toNat < x.deadline then d
  else
    let d := d.setStr n { x with deadline := x.deadline + dPeriod x.desc, lateBefore := true, unsure := 7 }
    let d := d.setReg Reg.CAM_LATE_EVENT (d.reg Reg.CAM_LATE_EVENT ||| BitVec.ofNat 32 (pow2 n.val))
    (d.addReg (Reg.CAM_STRn_LATE n) 1).camEvent (dPort x.desc))

/-! ### Completion (R239, R244, R245, R254) -/

/-- The header of a statistics record (Table 8.11). -/
def statHeader (n : Nat) (f : OFrame) (linesOut total : Nat) (avg : Word × Word × Word) : List Byte :=
  let l := f.desc
  let sat16 (x : Nat) : Nat := Nat.min 65535 x
  leBytes 4 f.frame ++ leBytes 4 (n + dPipe l * 32 + f.sensor.toNat * 65536) ++ leBytes 8 f.start.toNat ++ leBytes 8 f.endT.toNat ++
  leBytes 4 (f.ispPs + f.expPs * 65536) ++ leBytes 4 f.gainPs ++ leBytes 4 f.flags.toNat ++
  leBytes 4 (sat16 (f.exps.getD 0 {}).got + sat16 linesOut * 65536) ++ leBytes 4 (sat16 f.hdrErr + sat16 f.crcErr * 65536) ++
  leBytes 4 total ++ leBytes 4 avg.1.toNat ++ leBytes 4 avg.2.1.toNat ++ leBytes 4 avg.2.2.toNat ++ leBytes 4 0

/-- The static defect list of a block (Table 8.6). -/
def Dev.defects (d : Dev) (ag : Agent) (b : List Byte) : List (Nat × Nat) :=
  (List.range (fldAt b 0x50 16 13)).map (fun (i : Nat) =>
    let w := (d.readCount ag (addrAt b 0x54 + 4 * i)).toNat
    (w % 65536, w / 65536))

/-- Place of an output line within its picture, in luma lines. -/
def lumaRow (b : List Byte) (j : Nat) : Nat :=
  let h := Nat.max 1 (prmOutH b)
  if prmOfmt b = 1 ∧ h ≤ j then 2 * (j - h) else j % h

/-- Write output lines below luma row `k`. -/
def Dev.writeLines (d : Dev) (ag : Agent) (b : List Byte) (base stride k : Nat) (ls : List (Nat × List Byte)) : Dev :=
  ls.foldl (fun d x => if lumaRow b x.1 < k then d.engineStore ag (base + x.1 * stride) x.2 else d) d

/-- A closed frame of stream n completes; it takes its history from the frames of its own enable, and hands it on to them. -/
def Dev.completeFrame (d : Dev) (n : Nat) (f : OFrame) : Dev :=
  let s := Tbl.getD (d.str n).hist f.gen {}
  let l := f.desc
  let ag := agentStream n
  let isp := decide (dDest l ≠ 0)
  let tnr := addrAt l 0x74
  let half := dW l * dH l * 8
  let on := isp && decide (tnr ≠ 0) && decide (fldAt f.block 0 2 1 = 1) && !f.has ffFIRST && !s.wasCut
  let ref := d.readStruct ag (tnr + (if s.tnrHalf then half else 0)) half
  let h := if f.cut then (f.exps.map (fun (x : OExp) => x.rows.length)).foldl Nat.min (dH l) else dH l
  let o := ispFrame f.block (d.defects ag f.block) (dW l) h (dH l) (f.exps.map (fun (x : OExp) => x.rows)) (if on then some ref else none)
  let k := if f.cut then (Config.freeWord d.ctr n).toNat % (prmOutH f.block + 1) else prmOutH f.block
  let f := if on then f else f.mark ffTNR_OFF
  let out := if isp && f.buf.isSome then k else 0
  let avg := if isp then averages f.block o.grid (f.has ffPARTIAL) (s.avgY, s.avgRg, s.avgBg) else (s.avgY, s.avgRg, s.avgBg)
  let d := match f.buf with
    | some b => if isp then d.writeLines ag f.block (addrAt l 0x20 + b * wordAt l 0x28) (fldAt l 0x2C 0 24) k o.lines else d
    | none => d
  let d := if isp ∧ tnr ≠ 0 then
      d.engineStore ag (tnr + (if s.tnrHalf then 0 else half)) ((List.range half).map (fun (i : Nat) => Config.ispRef o.ref i)) else d
  let header := statHeader n f out (if isp then o.total else 0) avg
  let d := d.engineStore ag (addrAt l 0x40 + 16384 * (f.frame % Nat.max 1 (dNstat l))) (if isp then statRecord header o else header)
  let next : CamHist := { avgY := avg.1, avgRg := avg.2.1, avgBg := avg.2.2
                          tnrHalf := if isp ∧ tnr ≠ 0 then !s.tnrHalf else s.tnrHalf, wasCut := f.has ffTRUNCATED }
  let d := d.release ag
  let d := d.updStr n (fun s => { s with
    closed := s.closed.drop 1
    hist := Tbl.set (s.hist.filter (fun (e : Nat × CamHist) => decide (f.gen ≤ e.1))) f.gen next })
  let d := d.setReg (Reg.CAM_STRn_LAST_FLAGS n) f.flags
  let d := match f.buf with
    | some b => if dFlag l + b < nFlags then (d.setFlag (dFlag l + b)).stir false else d
    | none => d
  if f.flags.toNat % 64 = 0 then d
  else (d.setReg Reg.CAM_ERR_EVENT (d.reg Reg.CAM_ERR_EVENT ||| BitVec.ofNat 32 (pow2 n))).camEvent (dPort l)

/-- FRAME_COMPLETE of stream n: its oldest closed frame. -/
def execFrameComplete (n : Fin 32) (s : State) := act s (fun d =>
  match (d.str n).closed with
  | f :: _ => d.completeFrame n f
  | [] => d)

/-! ### Sensor control buses (R248, R250, R252, R253) -/

def Dev.bus (d : Dev) (j : Nat) : SBus := Tbl.getD d.med.bus j {}
def Dev.setBus (d : Dev) (j : Nat) (x : SBus) : Dev := d.updMed (fun m => { m with bus := Tbl.set m.bus j x })
def Dev.busOn (d : Dev) (j : Nat) : Bool := decide (d.fld (Reg.CAM_SCBj_CFG j) Fld.CAM_SCBj_CFG_MODE ≠ 0)

/-- The bus is free: it serves its first batch, or else the host transfer that waits. -/
def Dev.serveBus (d : Dev) (j : Nat) : Dev :=
  let x := d.bus j
  match x.batches with
  | b :: _ => if d.busOn j then { d with out := (b.writes.map (fun (w : SensorWrite) => Out.sensor j w)).reverse ++ d.out } else d
  | [] =>
    match x.host with
    | some (w, rd) =>
      let d := d.setBus j { x with hostRuns := true }
      if d.busOn j then { d with out := .scb j w rd :: d.out } else d
    | none => d

/-- Put a batch in the order of its release (R250). -/
def insertBatch (b : SBatch) : List SBatch → List SBatch
  | [] => [b]
  | c :: t =>
    if b.stamp.toNat < c.stamp.toNat ∨ (b.stamp = c.stamp ∧ b.stream < c.stream) then b :: c :: t else c :: insertBatch b t

/-- SENSOR_WRITE_BATCH of stream n: WR_DELAY after an issue frame's start its next batch is released. -/
def execSensorWriteBatch (n : Fin 32) (s : State) := act s (fun d =>
  match (d.str n).due with
  | [] => d
  | b :: rest =>
    let d := d.updStr n (fun s => { s with due := rest })
    let x := d.bus b.bus
    match x.batches with
    | [] =>
      let d := d.setBus b.bus { x with batches := [b] }
      if x.hostRuns then d else d.serveBus b.bus
    | c :: t =>
      d.setBus b.bus { x with batches := if x.hostRuns then insertBatch b (c :: t) else c :: insertBatch b t })

/-- A doubt about frame `t` of stream n (R252). -/
def Dev.doubt (d : Dev) (n t bit_ : Nat) : Dev :=
  let s := d.str n
  let hit (f : OFrame) : OFrame := if f.frame = t then f.mark bit_ else f
  if s.cur.any (fun (f : OFrame) => f.frame = t) || s.closed.any (fun (f : OFrame) => f.frame = t) then
    d.setStr n { s with cur := s.cur.map hit, closed := s.closed.map hit }
  else if (d.reg (Reg.CAM_STRn_FRAME n)).toNat < t then
    d.setStr n { s with doubts := Tbl.set s.doubts t (flagIf (Tbl.getD s.doubts t 0) true bit_) }
  else d

/-- SENSOR_BATCH_END of bus j: the writes that were refused twice were skipped. -/
def execSensorBatchEnd (j : Fin 12) (skipped : List Nat) (s : State) := act s (fun d =>
  let x := d.bus j
  match x.batches with
  | [] => d
  | b :: rest =>
    if x.hostRuns then d
    else
      let k := ((List.range b.writes.length).filter (fun i => skipped.contains i)).length
      let d := d.setBus j { x with batches := rest }
      let d := if k = 0 then d else (d.addReg (Reg.CAM_SCBj_NACKS j) k).doubt b.stream b.target ffSENSOR_ERR
      let d := if b.issue < (d.reg (Reg.CAM_STRn_FRAME b.stream)).toNat then d.doubt b.stream b.target ffSENSOR_LATE else d
      d.serveBus j)

/-- SCB_XFER: a write of CAM_SCBj_XFER; ignored from a LOST port (R310). -/
def execScbXfer (p : Port) (j : Fin 12) (v : Word) (s : State) := act s (fun d =>
  let x := d.bus j
  if (d.port p).lost then d
  else if !d.mayWrite p 3 j || x.host.isSome then d.raise (Reg.CAM_SCBj_XSTATUS j) Fld.CAM_SCBj_XSTATUS_WR_REJECT
  else
    let k := Fld.CAM_SCBj_XFER_LEN.get v
    if k = 3 then d
    else
      let n := if k = 0 then 1 else if k = 1 then 2 else 4
      let rd := decide (Fld.CAM_SCBj_XFER_DIR.get v = 1)
      let w : SensorWrite :=
        { dev := Fld.CAM_SCBj_XFER_ADDR.get v, reg := Fld.CAM_SCBj_XFER_REG.get v
          data := if rd then 0 else (d.reg (Reg.CAM_SCBj_XDATA j)).toNat % pow2 (8 * n), regBytes := 2, dataBytes := n }
      let d := (d.setBus j { x with host := some (w, rd) }).raise (Reg.CAM_SCBj_XSTATUS j) Fld.CAM_SCBj_XSTATUS_BUSY
      if x.batches.isEmpty then d.serveBus j else d)

/-- SCB_XFER_DONE of bus j: refused or not, with the value read. -/
def execScbXferDone (j : Fin 12) (nack : Bool) (v : Word) (s : State) := act s (fun d =>
  let x := d.bus j
  match x.host with
  | some (w, rd) =>
    if !x.hostRuns then d
    else
      let d := d.setBus j { x with host := none, hostRuns := false }
      let d := d.setFld (Reg.CAM_SCBj_XSTATUS j) Fld.CAM_SCBj_XSTATUS_BUSY 0
      let d := d.setFld (Reg.CAM_SCBj_XSTATUS j) Fld.CAM_SCBj_XSTATUS_NACK (b2n nack)
      let d := if rd && !nack then d.setReg (Reg.CAM_SCBj_XDATA j) (BitVec.ofNat 32 (v.toNat % pow2 (8 * w.dataBytes))) else d
      if x.batches.isEmpty then d else d.serveBus j
  | none => d)

/-- IBI on bus j. -/
def execIbi (j : Fin 12) (s : State) := act s (fun d =>
  if d.fld (Reg.CAM_SCBj_CFG j) Fld.CAM_SCBj_CFG_MODE = 1 then d.addReg (Reg.CAM_SCBj_IBI j) 1 else d)

/-! ### Memory jobs (R246) -/

def Dev.mjobRing (d : Dev) (m : Nat) : Nat := d.reg64 (Reg.ISPm_MJOB_RING_LO m) (Reg.ISPm_MJOB_RING_HI m)
def Dev.mjobProd (d : Dev) (m : Nat) : Word :=
  d.readCount (agentMjob m) (d.reg64 (Reg.ISPm_MJOB_PROD_LO m) (Reg.ISPm_MJOB_PROD_HI m))

/-- MEMORY_JOB: the idle pipe takes its next entry. -/
def execMemoryJob (m : Fin 4) (s : State) := act s (fun d =>
  let c := d.reg (Reg.ISPm_MJOB_CONS m)
  if d.mjobRing m = 0 || d.fw.stopping || (Tbl.find? d.med.mjob m).isSome || !countAhead c (d.mjobProd m) then d
  else
    let raw := d.readStruct (agentMjob m) (d.mjobRing m + 64 * (c.toNat % 64)) 64
    d.updMed (fun x => { x with mjob := Tbl.set x.mjob m raw }))

/-- The pixel of a line in memory. -/
def memPixel (dt : Nat) (unpacked : Bool) (line : List Byte) (i : Nat) : Nat :=
  (if unpacked then (if dt = 0x2F then wordAt line (4 * i) else byteAt line (2 * i) + 256 * byteAt line (2 * i + 1))
   else Config.csiPixel dt line i) % pow2 (dtBits dt)

/-- What a memory job does: its status, the device after its writes. -/
def Dev.runMjob (d : Dev) (m : Nat) (l : List Byte) : Nat × Dev :=
  let ag := agentMjob m
  let dt := fldAt l 0 0 6
  let exps := fldAt l 0 6 2
  let unp := bit (wordAt l 0) 8
  let w := fldAt l 4 0 16
  let h := fldAt l 4 16 16
  let src := addrAt l 8
  let stride := fldAt l 0x14 0 24
  let out := addrAt l 0x20
  let ostride := fldAt l 0x28 0 24
  let stat := addrAt l 0x2C
  let stray := strayBits l 16 ([(0, 0, 9), (4, 0, 32), (0x10, 0, 32), (0x14, 0, 24), (0x28, 0, 24), (0x34, 0, 19), (0x38, 0, 16), (0x3C, 0, 8)] ++
    addrField 8 ++ addrField 0x18 ++ addrField 0x20 ++ addrField 0x2C)
  let prm := addrAt l 0x18
  let lineLen := if unp then (if dt = 0x2F then 4 * w else 2 * w) else ceilDiv (w * dtBits dt) 8
  let b := d.readStruct ag prm 8192
  let lines := (List.range (exps * h)).map (fun (i : Nat) => src + i / Nat.max 1 h * wordAt l 0x10 + i % Nat.max 1 h * stride)
  if stray || !dtRaw dt || exps = 0 || w = 0 || h = 0 || 8192 < w || 8192 < h || prm % 64 ≠ 0 then (2, d)
  else if (d.firstBad prm 8192).isSome then (3, d)
  else if (d.poisoned prm 8192).isSome then (4, d)
  else if paramBad b w h exps || ostride < outLine b then (2, d)
  else if lines.any (fun (a : Nat) => (d.firstBad a lineLen).isSome) ||
      (List.range (outPlanes b)).any (fun (j : Nat) => (d.firstBad (out + j * ostride) (outLine b)).isSome) ||
      (stat ≠ 0 && (d.firstBad stat 13632).isSome) then (3, d)
  else if lines.any (fun (a : Nat) => (d.poisoned a lineLen).isSome) then (4, d)
  else
    let row (a : Nat) : List Nat :=
      let line := d.bytes ag a lineLen
      (List.range w).map (fun (i : Nat) => memPixel dt unp line i * pow2 (20 - dtBits dt))
    let img (e : Nat) : Img := ((lines.drop (e * h)).take h).map row
    let o := ispFrame b (d.defects ag b) w h h ((List.range exps).map img) none
    let id := fldAt l 0x38 0 16
    let f : OFrame :=
      { desc := List.replicate 128 0, frame := (d.reg (Reg.ISPm_MJOB_CONS m)).toNat, sensor := 0, start := d.time, endT := d.time
        buf := some 0, flags := flagIf 0 true ffTNR_OFF, exps := [{ got := h }], block := b, ispPs := id, expPs := id, gainPs := id }
    let d := d.add64 (Reg.ISPm_PIXELS_LO m) (Reg.ISPm_PIXELS_HI m) (w * h * exps)
    let d := d.writeLines ag b out ostride (prmOutH b) o.lines
    let avg := averages b o.grid false (0, 0, 0)
    let header := (statHeader 0 f (prmOutH b) o.total avg).set 4 (BitVec.ofNat 8 (m * 32))
    (1, if stat = 0 then d else d.engineStore ag stat (statRecord header o))

/-- MEMORY_JOB_DONE of pipe m. -/
def execMemoryJobDone (m : Fin 4) (s : State) := act s (fun d =>
  match Tbl.find? d.med.mjob m with
  | none => d
  | some l =>
    let ag := agentMjob m
    let c := d.reg (Reg.ISPm_MJOB_CONS m)
    let r := d.runMjob m l
    let d := ((r.2.release ag).engineStore ag (d.mjobRing m + 64 * (c.toNat % 64) + 0x3C) (leBytes 4 r.1)).release ag
    let d := (d.updMed (fun x => { x with mjob := Tbl.erase x.mjob m })).addReg (Reg.ISPm_MJOB_CONS m) 1
    if bit (wordAt l 0x34) 18 then (d.setFlag (fldAt l 0x34 0 18)).stir false else d)

/-! ### Commits (R232, R246) -/

/-- A commit has changed EN or the descriptor of stream n: `desc` is the copy made at acceptance where DESC was dirty. It waits
for the stream's next frame start (R232); nothing governs a stream that is off. -/
def Dev.streamCommit (d : Dev) (n : Nat) (desc : Option (List Byte)) : Dev :=
  let s := d.str n
  let en := decide (d.fld (Reg.CAM_STRn_CTRL n) Fld.CAM_STRn_CTRL_EN = 1)
  let l := desc.getD s.last
  let fresh := en && (!s.enabled || (s.next.any (fun (x : StrNext) => x.fresh)))
  let d := d.setStr n { s with last := l, next := some { en := en, fresh := fresh, desc := l, at_ := d.time } }
  if s.on then d else d.applyNext n

/-- A commit has changed CAM_CSIi_CFG: the receiver is reset. -/
def Dev.csiCommit (d : Dev) (i : Nat) : Dev :=
  let d := d.setReg (Reg.CAM_CSIi_STATUS i) 0
  (List.range 32).foldl (fun d n =>
    match (d.str n).cur with
    | some f => if dPort f.desc / 2 = i then d.closeFrame n else d
    | none => d) d

/-- A commit has set a memory-job ring: its consumer count takes the producer count. -/
def Dev.mjobCommit (d : Dev) (m : Nat) : Dev := d.setReg (Reg.ISPm_MJOB_CONS m) (d.mjobProd m)

/-- CAM_STRn_STATUS STATE. -/
def Dev.strState (d : Dev) (n : Nat) : Nat :=
  let s := d.str n
  if s.cur.isSome then 2 else if !s.enabled then 0 else if s.begun && !(s.next.any (fun (x : StrNext) => x.fresh)) then 3 else 1

end Sys2Proof.Machine
end

