-- ==== Sys2Proof/Machine/Video.lean ====
section
/-! DEFINITION. The video engines: access units, pictures in display order, concealment, and encode jobs (R261 to R271). -/

namespace Sys2Proof.Machine

/-! ### Decode contexts -/

def Dev.dctx (d : Dev) (n : Nat) : DCtx := Tbl.getD d.med.dctx n {}
def Dev.setDctx (d : Dev) (n : Nat) (x : DCtx) : Dev := d.updMed (fun m => { m with dctx := Tbl.set m.dctx n x })
def Dev.updDctx (d : Dev) (n : Nat) (f : DCtx → DCtx) : Dev := d.setDctx n (f (d.dctx n))

/-- Fields of the decode-context descriptor (Table 9.2). -/
def dcCodec (l : List Byte) : Nat := fldAt l 0 0 2
def dcEngine (l : List Byte) : Nat := fldAt l 0 2 1
def dcTen (l : List Byte) : Bool := bit (wordAt l 0) 3
def dcSlots (l : List Byte) : Nat := fldAt l 0 4 5
def dcNbuf (l : List Byte) : Nat := fldAt l 0 9 4
def dcMaxW (l : List Byte) : Nat := fldAt l 4 0 16
def dcMaxH (l : List Byte) : Nat := fldAt l 4 16 16
def dcFlag (l : List Byte) : Nat := fldAt l 0xC 0 18

/-- Rounded up to a multiple of 64 (R263). -/
def up64 (x : Nat) : Nat := ceilDiv x 64 * 64

/-- Bytes of one slot of reference storage (R263). -/
def dcSlotBytes (l : List Byte) : Nat :=
  let a := up64 (dcMaxW l) * up64 (dcMaxH l)
  let b := if dcTen l then 2 else 1
  3 * b * a / 2 + a / 16

/-- The producer count of a decode context (R265). -/
def Dev.auProd (d : Dev) (n : Nat) : Word := d.readCount (agentDctx n) (addrAt (d.dctx n).desc 0x28)

/-- The output buffer that comes next in a ring of the descriptor's NBUF. DESIGN CHOICE: where a commit has made the ring smaller
than the next buffer's number, it goes on at buffer 0. -/
def DCtx.slotIn (x : DCtx) (l : List Byte) : Nat := if x.nextBuf < dcNbuf l then x.nextBuf else 0

/-- The next output buffer of a picture under descriptor `l` is free (R266). -/
def Dev.dcFree (d : Dev) (n : Nat) (l : List Byte) : Bool :=
  let x := d.dctx n
  ringFree x.bufs (x.slotIn l) (d.readCount (agentDctx n) (addrAt l 0x50))

/-- A context that its engine can serve (R264): its head entry is ready and it has a free output buffer. Each held picture
occupies a slot, and one is needed for the picture to be decoded (R266); the pictures of an entry with EOS are output
first. -/
def Dev.dcReady (d : Dev) (n : Nat) : Bool :=
  let x := d.dctx n
  x.on && !x.flush && decide (x.held.length < dcSlots x.desc) && countAhead (d.reg (Reg.VID_DCTXn_AU_CONS n)) (d.auProd n) &&
  d.dcFree n x.desc

/-- Whose turn it is: the first that can be served after the one last served, among `k`, in rising order and round. -/
def roundRobin (k last : Nat) (can : Nat → Bool) : Option Nat :=
  ((List.range k).map (fun (i : Nat) => (last + 1 + i) % k)).find? can

def Dev.dcTurn (d : Dev) (e : Nat) : Option Nat :=
  roundRobin 64 (Tbl.getD d.med.engLast e 63) (fun n => dcEngine (d.dctx n).desc = e && d.dcReady n)

/-- A value of a plane; outside it, mid-grey. -/
def planeAt (p : List (List Nat)) (grey x y : Nat) : Nat := (p.getD y []).getD x grey

/-- Mid-grey (R269). -/
def midGrey (ten : Bool) : Nat := if ten then 512 else 128

/-- The picture with its missing blocks concealed (R269), a monochrome one with mid-grey chroma (R261). -/
def concealed (a : AuPic) (prev : Option Pic) : Pic :=
  let p := a.pic
  let g := midGrey p.ten
  let old := prev.filter (fun (q : Pic) => decide (q.w = p.w ∧ q.h = p.h ∧ q.ten = p.ten))
  let fix (w h b : Nat) (sel : Pic → List (List Nat)) (own : Bool) : List (List Nat) :=
    tabulate w h (fun x y =>
      if a.missing.contains (x / b, y / b) then
        match old with
        | some q => planeAt (sel q) g x y
        | none => g
      else if own then planeAt (sel p) g x y else g)
  { p with y := fix p.w p.h 16 (fun (q : Pic) => q.y) true
           u := fix (ceilDiv p.w 2) (ceilDiv p.h 2) 8 (fun (q : Pic) => q.u) (!a.mono)
           v := fix (ceilDiv p.w 2) (ceilDiv p.h 2) 8 (fun (q : Pic) => q.v) (!a.mono) }

/-- The 16 × 16 blocks of a picture. -/
def totalBlocks (p : Pic) : Nat := ceilDiv p.w 16 * ceilDiv p.h 16

/-- Codes of Table 9.4. -/
def auDECODED : Nat := 1
def auWAIT_KEY : Nat := 2
def auDIM_EXCEEDS : Nat := 3
def auREF_EXCEEDS : Nat := 4
def auUNSUPPORTED : Nat := 5
def auBAD_ENTRY : Nat := 6
def auADDRESS_RANGE : Nat := 7
def auECC : Nat := 8

/-- The status of a picture before it is decoded (R267, R268); none: it is decoded. -/
def auReject (x : DCtx) (a : AuPic) : Option Nat :=
  let l := x.desc
  if x.waitKey && !a.key then some auWAIT_KEY
  else if x.rasl && !a.key && a.rasl then some auWAIT_KEY
  else if dcMaxW l < a.pic.w ∨ dcMaxH l < a.pic.h then some auDIM_EXCEEDS
  else if dcSlots l < a.slots then some auREF_EXCEEDS
  else if a.unsupported || (a.pic.ten && (!dcTen l || decide (dcCodec l = 0))) then some auUNSUPPORTED
  else none

/-- A picture is decoded into reference storage, whose bytes the spec does not lay out. -/
def Dev.decodePic (d : Dev) (n : Nat) (raw : List Byte) (count : Word) (a : AuPic) : Dev :=
  let x := d.dctx n
  let l := x.desc
  let p := concealed a x.prev
  let k := a.missing.eraseDups.length
  let base := addrAt l 0x10
  let d := d.engineStore (agentDctx n) base ((List.range (dcSlots l * dcSlotBytes l)).map (fun (i : Nat) => Config.freeByte d.ctr (base + i)))
  let tainted := x.tainted && !a.key
  let h : Held :=
    { pic := p, desc := l, order := a.order, crop := a.crop, au := count, time := (raw.drop 0x10).take 8, key := a.key, first := x.waitKey
      grain := a.grain, extra := a.extra, concealed := k, refConcealed := tainted }
  let d := d.setDctx n { x with
    waitKey := false, rasl := if a.key then x.waitKey && a.cra else x.rasl
    held := x.held ++ [h], prev := some p, tainted := tainted || decide (0 < k) }
  let e := dcEngine l
  d.add64 (Reg.VID_ENGe_PIXELS_LO e) (Reg.VID_ENGe_PIXELS_HI e) (a.pic.w * a.pic.h)

/-- An access unit is decoded, discarded or rejected: its status. The spec states none for bytes in which there is no picture
outside WAIT_KEY, unless an uncorrectable read ended them (R265). -/
def Dev.decodeAu (d : Dev) (n : Nat) (raw : List Byte) (count : Word) (broken : Bool) (au : Option AuPic) : Nat × Dev :=
  let x := d.dctx n
  match au with
  | none => (if x.waitKey then auWAIT_KEY else if broken then auECC else (Config.freeByte d.ctr n).toNat, d)
  | some a =>
    match auReject x a with
    | some st =>
      if st = auWAIT_KEY then (st, d)
      else (st, (d.setDctx n { x with waitKey := true, rasl := false }).addReg (Reg.VID_DCTXn_REJECTED n) 1)
    | none => (if broken then auECC else auDECODED, d.decodePic n raw count a)

/-- ACCESS_UNIT of context n; `au`: what the codec makes of the entry's bytes. -/
def execAccessUnit (n : Fin 64) (au : Option AuPic) (s : State) := act s (fun d =>
  let x := d.dctx n
  let l := x.desc
  if d.dcTurn (dcEngine l) ≠ some n.val then d
  else
    let ag := agentDctx n
    let count := d.reg (Reg.VID_DCTXn_AU_CONS n)
    let at_ := addrAt l 0x20 + 32 * (count.toNat % 64)
    let raw := d.readStruct ag at_ 32
    let addr := addrAt raw 0
    let len := fldAt raw 8 0 24
    let bad := strayBits raw 8 ([(8, 0, 24), (0xC, 0, 2), (0x10, 0, 32), (0x14, 0, 32), (0x18, 0, 8)] ++ addrField 0) || decide (len = 0)
    let d := d.engineReads.updMed (fun m => { m with engLast := Tbl.set m.engLast (dcEngine l) n.val })
    let d := if !bad && bit (wordAt raw 0xC) 0 then
        d.setDctx n { x with waitKey := true, rasl := false, held := [], prev := none, tainted := false, outWait := false } else d
    let r := if bad then (auBAD_ENTRY, d)
      else if (d.firstBad addr len).isSome then (auADDRESS_RANGE, d)
      else d.decodeAu n raw count (d.poisoned addr len).isSome au
    let d := if !bad && bit (wordAt raw 0xC) 1 then r.2.updDctx n (fun x => { x with flush := !x.held.isEmpty }) else r.2
    ((d.engineStore ag (at_ + 0x18) (leBytes 4 r.1)).release ag).addReg (Reg.VID_DCTXn_AU_CONS n) 1)

/-- The held picture that comes first in display order. -/
def firstHeld : List Held → Option Held
  | [] => none
  | h :: t =>
    match firstHeld t with
    | some g => if g.order < h.order then some g else some h
    | none => some h

/-- A sample as it is written: 8 bits, or 10 bits in [15:6]. -/
def sampleBytes (ten : Bool) (v : Nat) : List Byte := if ten then leBytes 2 (v * 64) else leBytes 1 v

/-- The lines of an output picture: offset in the buffer, bytes. -/
def pictureLines (l : List Byte) (h : Held) : List (Nat × List Byte) :=
  let c := h.crop
  let p := h.pic
  let g := midGrey p.ten
  let stride := fldAt l 0x3C 0 24
  let off := wordAt l 0x40
  (List.range c.h).map (fun (y : Nat) =>
    (y * stride, (List.range c.w).foldr (fun (x : Nat) (acc : List Byte) => sampleBytes p.ten (planeAt p.y g (c.x + x) (c.y + y)) ++ acc) [])) ++
  (List.range (ceilDiv c.h 2)).map (fun (y : Nat) =>
    (off + y * stride, (List.range (ceilDiv c.w 2)).foldr (fun (x : Nat) (acc : List Byte) =>
      sampleBytes p.ten (planeAt p.u g (c.x / 2 + x) (c.y / 2 + y)) ++
      sampleBytes p.ten (planeAt p.v g (c.x / 2 + x) (c.y / 2 + y)) ++ acc) []))

/-- A picture record (Table 9.5). -/
def pictureRecord (pic : Word) (h : Held) : List Byte :=
  leBytes 4 pic.toNat ++ leBytes 4 h.au.toNat ++ h.time ++ leBytes 4 (h.crop.w + h.crop.h * 65536) ++
  leBytes 4 ((if h.pic.ten then 10 else 8) + b2n h.key * 256) ++
  leBytes 4 (b2n (decide (0 < h.concealed)) + b2n h.refConcealed * 2 + b2n h.grain * 4 + b2n h.extra * 8 + b2n h.first * 16) ++
  leBytes 4 h.concealed ++ leBytes 4 (totalBlocks h.pic) ++ leBytes 28 0

/-- An enable takes effect on decode context n (R262). -/
def Dev.dctxEnable (d : Dev) (n : Nat) (l : List Byte) : Dev :=
  let d := d.setDctx n { on := true, desc := l, last := l }
  (d.setReg (Reg.VID_DCTXn_AU_CONS n) (d.auProd n)).setReg (Reg.VID_DCTXn_PIC n) 0

/-- The last picture from before has been output: an enable that waited for it takes effect. -/
def Dev.dctxNext (d : Dev) (n : Nat) : Dev :=
  match (d.dctx n).next with
  | some l => if (d.dctx n).held.isEmpty then d.dctxEnable n l else d
  | none => d

/-- PICTURE_OUTPUT of context n: a picture is output under the descriptor under which it was decoded. -/
def execPictureOutput (n : Fin 64) (s : State) := act s (fun d =>
  let x := d.dctx n
  let ag := agentDctx n
  match firstHeld x.held with
  | none => d
  | some h =>
    let l := h.desc
    if !d.dcFree n l then d.setDctx n { x with outWait := true }
    else
      let b := x.slotIn l
      let pic := d.reg (Reg.VID_DCTXn_PIC n)
      let base := addrAt l 0x30 + b * wordAt l 0x38
      let d := (pictureLines l h).foldl (fun (d : Dev) (y : Nat × List Byte) => d.engineStore ag (base + y.1) y.2) d
      let d := (d.engineStore ag (addrAt l 0x48 + 64 * b) (pictureRecord pic h)).release ag
      let held := x.held.filter (fun (g : Held) => g ≠ h)
      let d := d.setDctx n { x with
        held := held, outWait := false, flush := x.flush && !held.isEmpty
        nextBuf := (b + 1) % Nat.max 1 (dcNbuf l), bufs := Tbl.set x.bufs b pic.toNat }
      let d := d.addReg (Reg.VID_DCTXn_PIC n) 1
      let d := if 0 < h.concealed then d.addReg (Reg.VID_DCTXn_CONCEALED n) 1 else d
      let d := if dcFlag l + b < nFlags then (d.setFlag (dcFlag l + b)).stir false else d
      d.dctxNext n)

/-- The picture whose turn it is still finds no free buffer. -/
def Dev.dcWaits (d : Dev) (n : Nat) : Bool :=
  (d.dctx n).outWait && ((firstHeld (d.dctx n).held).map (fun (h : Held) => !d.dcFree n h.desc)).getD false

/-- VID_DCTXn_STATUS STATE. -/
def Dev.dctxState (d : Dev) (n : Nat) : Nat :=
  let x := d.dctx n
  if !x.on then 0 else if d.dcWaits n then 3 else if x.waitKey then 1 else 2

/-- A commit has changed EN or the descriptor of decode context n (R262): pictures decoded before it are output under the
older settings (R232). DESIGN CHOICE: an enable that finds some waits for them. -/
def Dev.dctxCommit (d : Dev) (n : Nat) (desc : Option (List Byte)) : Dev :=
  let x := d.dctx n
  let en := decide (d.fld (Reg.VID_DCTXn_CTRL n) Fld.VID_DCTXn_CTRL_EN = 1)
  let l := desc.getD x.last
  if !en then d.setDctx n { x with on := false, desc := l, last := l, prev := none, next := none }
  else if x.on then d.setDctx n { x with desc := l, last := l }
  else if x.held.isEmpty then d.dctxEnable n l
  else d.setDctx n { x with last := l, next := some l }

/-! ### Encode contexts -/

def Dev.ectx (d : Dev) (n : Nat) : ECtx := Tbl.getD d.med.ectx n {}
def Dev.setEctx (d : Dev) (n : Nat) (x : ECtx) : Dev := d.updMed (fun m => { m with ectx := Tbl.set m.ectx n x })

/-- Fields of the encode-context descriptor (Table 9.6). -/
def ecW (l : List Byte) : Nat := fldAt l 4 0 16
def ecH (l : List Byte) : Nat := fldAt l 4 16 16
def ecPeriod (l : List Byte) : Nat := fldAt l 8 16 16
def ecRing (l : List Byte) : Nat := addrAt l 0x28
def ecRingBytes (l : List Byte) : Nat := wordAt l 0x30

/-- The producer count of an encode context. -/
def Dev.jobProd (d : Dev) (n : Nat) : Word := d.readCount (agentEctx n) (addrAt (d.ectx n).desc 0x20)

/-- Commits that find `on`, and perhaps older ones that wait, make these settings of EN and a descriptor. -/
def EngNext.after (old : Option EngNext) (on en : Bool) (l : List Byte) : EngNext :=
  let was := (old.map (fun (y : EngNext) => y.en)).getD on
  { en := en, fresh := (old.map (fun (y : EngNext) => y.fresh)).getD false || (en && !was), desc := l }

/-- Settings take effect on encode context n. -/
def Dev.setEnc (d : Dev) (n : Nat) (y : EngNext) : Dev :=
  let x := d.ectx n
  let l := y.desc
  if !y.en then d.setEctx n { x with on := false, desc := l, last := l, next := none }
  else if !y.fresh then d.setEctx n { x with desc := l, last := l, next := none }
  else
    let d := d.setEctx n { on := true, desc := l, last := l }
    d.setReg (Reg.VID_ECTXn_JOB_CONS n) (d.jobProd n)

/-- A commit has changed EN or the descriptor of encode context n: a picture in progress ends under the old settings. -/
def Dev.ectxCommit (d : Dev) (n : Nat) (desc : Option (List Byte)) : Dev :=
  let x := d.ectx n
  let en := decide (d.fld (Reg.VID_ECTXn_CTRL n) Fld.VID_ECTXn_CTRL_EN = 1)
  let l := desc.getD x.last
  let y := EngNext.after x.next x.on en l
  if x.wait.isSome then d.setEctx n { x with last := l, next := some y } else d.setEnc n y

/-- The address and length of every source line of a job (Table 9.7). -/
def jobLines (l raw : List Byte) : List (Nat × Nat) :=
  let src := addrAt raw 0
  let stride := fldAt raw 8 0 24
  (List.range (ecH l)).map (fun (y : Nat) => (src + y * stride, ecW l)) ++
  (List.range (ecH l / 2)).map (fun (y : Nat) => (src + wordAt raw 0xC + y * stride, ecW l))

/-- A job that cannot be coded: its status. -/
def Dev.jobReject (d : Dev) (l raw : List Byte) : Option Nat :=
  let stray := strayBits raw 16 ([(8, 0, 24), (0xC, 0, 32), (0x10, 0, 2), (0x18, 0, 32), (0x1C, 0, 32), (0x20, 0, 32), (0x24, 0, 32),
    (0x28, 0, 9)] ++ addrField 0)
  if stray || decide (addrAt raw 0 % 64 ≠ 0 ∨ fldAt raw 8 0 24 % 64 ≠ 0 ∨ wordAt raw 0xC % 64 ≠ 0) then some 2
  else if (jobLines l raw).any (fun (x : Nat × Nat) => (d.firstBad x.1 x.2).isSome) then some 3
  else if (jobLines l raw).any (fun (x : Nat × Nat) => (d.poisoned x.1 x.2).isSome) then some 4
  else none

/-- The bytes of a picture into the bitstream ring, wrapping at its end. -/
def Dev.putRing (d : Dev) (ag base size : Nat) : Nat → List Byte → Dev
  | _, [] => d
  | i, b :: t => (d.engineStore ag (base + i % Nat.max 1 size) [b]).putRing ag base size (i + 1) t

/-- A job ends: OUT_POS, OUT_BYTES, STATUS, the flag, the count; a commit that it held off takes effect. -/
def Dev.endEnc (d : Dev) (n : Nat) (raw : List Byte) (pos bytes : Word) (status : Nat) (idr : Bool) (since : Option Nat) : Dev :=
  let x := d.ectx n
  let l := x.desc
  let ag := agentEctx n
  let at_ := addrAt l 0x18 + 64 * ((d.reg (Reg.VID_ECTXn_JOB_CONS n)).toNat % 64)
  let d := (d.engineStore ag (at_ + 0x20) (leBytes 4 pos.toNat ++ leBytes 4 bytes.toNat ++ leBytes 4 (status + b2n idr * 256))).release ag
  let d := (d.setEctx n { x with wait := none, since := since }).addReg (Reg.VID_ECTXn_JOB_CONS n) 1
  let d := if bit (wordAt raw 0x10) 1 then (d.setFlag (fldAt l 0x14 0 18)).stir false else d
  match x.next with
  | some y => d.setEnc n y
  | none => d

/-- A context has a picture to code, or one whose bytes the ring can now take (R271). -/
def Dev.encCan (d : Dev) (n : Nat) : Bool :=
  let x := d.ectx n
  x.on && match x.wait with
    | none => countAhead (d.reg (Reg.VID_ECTXn_JOB_CONS n)) (d.jobProd n)
    | some w =>
      let rptr := d.readCount (agentEctx n) (addrAt x.desc 0x34)
      decide ((d.reg (Reg.VID_ECTXn_OUT_POS n) + BitVec.ofNat 32 w.1.length - rptr).toNat ≤ ecRingBytes x.desc)

/-- Whose turn it is: the engine serves its contexts round-robin, one picture at a time (R264, R270). -/
def Dev.encTurn (d : Dev) : Option Nat := roundRobin 16 (Tbl.getD d.med.engLast 2 15) d.encCan

/-- ENCODE_JOB of context n; `coded`: the bits of the picture, which the codec, the descriptor and the stepping fix (R270). -/
def execEncodeJob (n : Fin 16) (coded : List Byte) (s : State) := act s (fun d =>
  let x := d.ectx n
  let l := x.desc
  let ag := agentEctx n
  let c := d.reg (Reg.VID_ECTXn_JOB_CONS n)
  if d.encTurn ≠ some n.val then d
  else
    let d := d.updMed (fun m => { m with engLast := Tbl.set m.engLast 2 n.val })
    let raw := d.readStruct ag (addrAt l 0x18 + 64 * (c.toNat % 64)) 64
    let fail (d : Dev) (st : Nat) : Dev :=
      d.endEnc n raw (Config.freeWord d.ctr 0) (Config.freeWord d.ctr 1) st (Config.freeBit d.ctr 0) none
    match if x.wait.isSome then none else d.jobReject l raw with
    | some st => fail d st
    | none =>
      let fresh := x.wait.isNone
      let idr := match x.since with
        | none => true
        | some k => decide (ecPeriod l ≤ k + 1) || bit (wordAt raw 0x10) 0
      let w := x.wait.getD (coded, idr)
      let d := if fresh then d.engineReads.add64 (Reg.VID_ENGe_PIXELS_LO 2) (Reg.VID_ENGe_PIXELS_HI 2) (ecW l * ecH l) else d
      let pos := d.reg (Reg.VID_ECTXn_OUT_POS n)
      let rptr := d.readCount ag (addrAt l 0x34)
      if ecRingBytes l < 2 * w.1.length then fail d 5
      else if ecRingBytes l < (pos + BitVec.ofNat 32 w.1.length - rptr).toNat then d.setEctx n { x with wait := some w }
      else
        let d := d.putRing ag (ecRing l) (ecRingBytes l) pos.toNat w.1
        let d := d.addReg (Reg.VID_ECTXn_OUT_POS n) w.1.length
        d.endEnc n raw pos (BitVec.ofNat 32 w.1.length) 1 w.2 (some (if w.2 then 0 else x.since.getD 0 + 1)))

/-- VID_ECTXn_STATUS STATE. A picture is coded in one step: between two steps the context whose turn it is reads ENCODING. -/
def Dev.ectxState (d : Dev) (n : Nat) : Nat :=
  let x := d.ectx n
  if !x.on then 0 else if d.encTurn = some n then 2 else if x.wait.isSome then 3 else 1

end Sys2Proof.Machine
end

