-- ==== Sys2Proof/Machine/Batch.lean ====
section
/-! DEFINITION. The tensor assembly unit: samples and batches (R272 to R279). -/

namespace Sys2Proof.Machine

def Dev.bstr (d : Dev) (n : Nat) : BStr := Tbl.getD d.med.bstr n {}
def Dev.setBstr (d : Dev) (n : Nat) (x : BStr) : Dev := d.updMed (fun m => { m with bstr := Tbl.set m.bstr n x })

/-- Fields of the batch-stream descriptor (Table 9.9). -/
def bsN (l : List Byte) : Nat := fldAt l 0 0 7
def bsNbatch (l : List Byte) : Nat := fldAt l 0 7 4
def bsPlanar (l : List Byte) : Bool := bit (wordAt l 0) 11
def bsC (l : List Byte) : Nat := let c := fldAt l 0 12 2; if c = 0 then 1 else if c = 1 then 3 else 4
def bsBgr (l : List Byte) : Bool := bit (wordAt l 0) 14
def bsFmt (l : List Byte) : Fmt := Fmt.ofCode (fldAt l 0 15 4)
def bsRnd (l : List Byte) : Rnd := Rnd.ofCode (fldAt l 0 19 2)
def bsNearest (l : List Byte) : Bool := bit (wordAt l 0) 21
def bsPadCopy (l : List Byte) : Bool := bit (wordAt l 0) 22
def bsW (l : List Byte) : Nat := fldAt l 4 0 16
def bsH (l : List Byte) : Nat := fldAt l 4 16 16
def bsTimeout (l : List Byte) : Nat := wordAt l 0xC
def bsWait (l : List Byte) : Nat := wordAt l 0x10
def bsFlag (l : List Byte) : Nat := fldAt l 0x14 0 18
def bsMean (l : List Byte) (c : Nat) : Int := sgn 16 (byteAt l (0x18 + 2 * c) + 256 * byteAt l (0x19 + 2 * c))
def bsShift (l : List Byte) (c : Nat) : Int := sgn 8 (byteAt l (0x20 + c))

/-- Element bytes, and the sample size S (R276). -/
def bsE (l : List Byte) : Nat := (bsFmt l).width / 8
def bsS (l : List Byte) : Nat := bsW l * bsH l * bsC l * bsE l

def Dev.bsProd (d : Dev) (n : Nat) : Word := d.readCount (agentBstr n) (addrAt (d.bstr n).desc 0x30)

/-- The head entry of a batch stream, if there is one. -/
def Dev.bsHead (d : Dev) (n : Nat) : Option (List Byte) :=
  let c := d.reg (Reg.TAU_BSTRn_SAMPLE_CONS n)
  if countAhead c (d.bsProd n) then
    some (d.readStruct (agentBstr n) (addrAt (d.bstr n).desc 0x28 + 64 * (c.toNat % 64)) 64)
  else none

/-- The batch has its buffer, or its buffer is free (R278). -/
def Dev.bsRoom (d : Dev) (n : Nat) : Bool :=
  let x := d.bstr n
  x.buf.isSome || ringFree x.bufs x.nextBuf (d.readCount (agentBstr n) (addrAt x.desc 0x50))

/-- Fields of a sample entry (Table 9.10). -/
def seFmt (r : List Byte) : Nat := fldAt r 8 0 4
def seLimited (r : List Byte) : Bool := bit (wordAt r 8) 4
def seWait (r : List Byte) : Bool := bit (wordAt r 8) 5
def seCheck (r : List Byte) : Bool := bit (wordAt r 8) 6
def seFlush (r : List Byte) : Bool := bit (wordAt r 8) 7
def seW (r : List Byte) : Nat := fldAt r 0x14 0 16
def seH (r : List Byte) : Nat := fldAt r 0x14 16 16
def seCx (r : List Byte) : Nat := fldAt r 0x18 0 16
def seCy (r : List Byte) : Nat := fldAt r 0x18 16 16
def seCw (r : List Byte) : Nat := fldAt r 0x1C 0 16
def seCh (r : List Byte) : Nat := fldAt r 0x1C 16 16
def seFlag (r : List Byte) : Nat := fldAt r 0x20 0 18

/-- Codes of Table 9.11. -/
def seOK : Nat := 0
def seEMPTY : Nat := 1
def seBAD_ENTRY : Nat := 2
def seADDRESS_RANGE : Nat := 3
def seECC : Nat := 4
def seSRC_FLAGGED : Nat := 5
def seWAIT_EXPIRED : Nat := 6

/-- OUT against the crop (R274): from a crop's eighth, rounded up, to eight times the crop. -/
def sizeOk (out crop : Nat) : Bool := decide (ceilDiv crop 8 ≤ out ∧ out ≤ 8 * crop)

/-- Rule 1 of R277, and the source formats of one output channel (R273). -/
def badSample (l r : List Byte) : Bool :=
  strayBits r 16 ([(8, 0, 8), (0xC, 0, 24), (0x10, 0, 32), (0x14, 0, 32), (0x18, 0, 32), (0x1C, 0, 32), (0x20, 0, 18), (0x24, 0, 32),
    (0x30, 0, 32), (0x38, 0, 32), (0x3C, 0, 32)] ++ addrField 0 ++ addrField 0x28) ||
  decide (4 < seFmt r ∨ seCw r = 0 ∨ seCh r = 0 ∨ seW r < seCx r + seCw r ∨ seH r < seCy r + seCh r) ||
  !sizeOk (bsW l) (seCw r) || !sizeOk (bsH l) (seCh r) || decide (addrAt r 0x28 % 4 ≠ 0) ||
  (decide (bsC l = 1) && decide (2 < seFmt r))

/-- The source bytes that the crop covers: address and length. -/
def seLines (r : List Byte) : List (Nat × Nat) :=
  let src := addrAt r 0
  let stride := fldAt r 0xC 0 24
  let plane := wordAt r 0x10
  let rows (base px : Nat) : List (Nat × Nat) :=
    (List.range (seCh r)).map (fun (y : Nat) => (base + (seCy r + y) * stride + seCx r * px, seCw r * px))
  let chroma (px : Nat) : List (Nat × Nat) :=
    let x0 := seCx r / 2
    let x1 := (seCx r + seCw r - 1) / 2
    let y0 := seCy r / 2
    let y1 := (seCy r + seCh r - 1) / 2
    (List.range (y1 - y0 + 1)).map (fun (y : Nat) => (src + plane + (y0 + y) * stride + 2 * x0 * px, 2 * (x1 - x0 + 1) * px))
  match seFmt r with
  | 0 => rows src 1
  | 1 => rows src 1 ++ chroma 1
  | 2 => rows src 2 ++ chroma 2
  | 3 => rows src 3
  | _ => rows src 1 ++ rows (src + plane) 1 ++ rows (src + 2 * plane) 1

/-- clamp of R273. -/
def clamp8 (x : Int) : Nat := if x < 0 then 0 else if 255 < x then 255 else x.toNat

/-- YUV to RGB (R273, Table 9.8). -/
def yuvRgb (limited : Bool) (y u v : Int) : Nat × Nat × Nat :=
  let cy : Int := if limited then 4769 else 4096
  let crv : Int := if limited then 7343 else 6450
  let cgu : Int := if limited then 873 else 767
  let cgv : Int := if limited then 2183 else 1917
  let cbu : Int := if limited then 8652 else 7601
  let d := y - (if limited then 16 else 0)
  let u := u - 128
  let v := v - 128
  (clamp8 ((cy * d + crv * v + 2048) / 4096), clamp8 ((cy * d - cgu * u - cgv * v + 2048) / 4096), clamp8 ((cy * d + cbu * u + 2048) / 4096))

/-- A P010 sample reduced to 8 bits. -/
def p010 (w : Nat) : Nat := Nat.min 255 ((w / 64 + 2) / 4)

/-- The converted pixel at a place of the source (R273). -/
def Dev.srcPixel (d : Dev) (ag : Agent) (r : List Byte) (x y : Nat) : Nat × Nat × Nat :=
  let src := addrAt r 0
  let stride := fldAt r 0xC 0 24
  let plane := wordAt r 0x10
  let b (a : Nat) : Nat := (d.see ag a).toNat
  let h (a : Nat) : Nat := p010 (b a + 256 * b (a + 1))
  let row := src + y * stride
  let crow := src + plane + y / 2 * stride
  match seFmt r with
  | 0 => yuvRgb (seLimited r) (b (row + x)) 128 128
  | 1 => yuvRgb (seLimited r) (b (row + x)) (b (crow + x / 2 * 2)) (b (crow + x / 2 * 2 + 1))
  | 2 => yuvRgb (seLimited r) (h (row + 2 * x)) (h (crow + x / 2 * 4)) (h (crow + x / 2 * 4 + 2))
  | 3 => (b (row + 3 * x), b (row + 3 * x + 1), b (row + 3 * x + 2))
  | _ => (b (row + x), b (row + plane + x), b (row + 2 * plane + x))

/-- The one channel of a one-channel output: d alone (R273). -/
def Dev.srcLuma (d : Dev) (ag : Agent) (r : List Byte) (x y : Nat) : Nat :=
  let row := addrAt r 0 + y * fldAt r 0xC 0 24
  let v := if seFmt r = 2 then p010 ((d.see ag (row + 2 * x)).toNat + 256 * (d.see ag (row + 2 * x + 1)).toNat) else (d.see ag (row + x)).toNat
  (yuvRgb (seLimited r) v 128 128).1

/-- One channel's value before the resizing. -/
def Dev.srcChan (d : Dev) (ag : Agent) (l r : List Byte) (c x y : Nat) : Nat :=
  if bsC l = 1 then d.srcLuma ag r x y
  else
    let p := d.srcPixel ag r x y
    let c := if bsBgr l then 2 - c else c
    if c = 0 then p.1 else if c = 1 then p.2.1 else p.2.2

/-- The code of channel `c` of an output pixel (R275). -/
def sampleCode (l : List Byte) (c p : Nat) : Nat :=
  if c = 3 then 0
  else (convert (bsFmt l) (bsRnd l) false 0 ((Val.ofInt ((p : Int) - bsMean l c)).scale (bsShift l c))).code

/-- The bytes of a sample, in the stream's layout (R272, R276). -/
def Dev.buildSample (d : Dev) (ag : Agent) (l r : List Byte) : List Byte :=
  let w := bsW l
  let h := bsH l
  let code (c x y : Nat) : List Byte :=
    leBytes (bsE l) (sampleCode l c
      (resizeVal (fun x y => d.srcChan ag l r c (seCx r + x) (seCy r + y)) (seCw r) (seCh r) w h (bsNearest l) x y))
  if bsPlanar l then
    (List.range (bsC l * h * w)).foldr (fun (i : Nat) (acc : List Byte) => code (i / Nat.max 1 (h * w)) (i % w) (i / Nat.max 1 w % h) ++ acc) []
  else
    (List.range (h * w * bsC l)).foldr (fun (i : Nat) (acc : List Byte) =>
      code (i % bsC l) (i / bsC l % w) (i / bsC l / Nat.max 1 w) ++ acc) []

/-- The pad content (R277). -/
def Dev.padContent (d : Dev) (ag : Agent) (l : List Byte) : List Byte :=
  if bsPadCopy l then d.readStruct ag (addrAt l 0x58) (bsS l) else List.replicate (bsS l) (BitVec.ofNat 8 (byteAt l 8))

/-- The code of a slot: rules 3 and 4 of R277. -/
def Dev.slotCode (d : Dev) (ag : Agent) (r : List Byte) : Nat :=
  let st := addrAt r 0x28
  let src := if (seLines r).any (fun (x : Nat × Nat) => (d.firstBad x.1 x.2).isSome) then seADDRESS_RANGE
    else if (seLines r).any (fun (x : Nat × Nat) => (d.poisoned x.1 x.2).isSome) then seECC else seOK
  if !seCheck r then src
  else if (d.firstBad st 4).isSome then seADDRESS_RANGE
  else if (d.poisoned st 4).isSome then seECC
  else if (BitVec.ofNat 32 (leNat (d.bytes ag st 4)) &&& BitVec.ofNat 32 (wordAt r 0x24)) ≠ 0 then seSRC_FLAGGED
  else src

/-- Fill slot `k` of the batch with bytes. -/
def Dev.putSlot (d : Dev) (n b k : Nat) (l bs : List Byte) : Dev :=
  let d := d.engineStore (agentBstr n) (addrAt l 0x38 + b * wordAt l 0x40 + k * bsS l) bs
  d.add64 Reg.TAU_PIXELS_LO Reg.TAU_PIXELS_HI (bsW l * bsH l)

/-- The head entry takes the next slot of the batch with a code. -/
def Dev.takeSlot (d : Dev) (n : Nat) (r : List Byte) (err : Nat) : Dev :=
  let x := d.bstr n
  let l := x.desc
  let b := x.buf.getD x.nextBuf
  let ag := agentBstr n
  let d := d.engineReads
  let c := d.reg (Reg.TAU_BSTRn_SAMPLE_CONS n)
  let d := d.putSlot n b x.slots.length l (if err = seOK then d.buildSample ag l r else d.padContent ag l)
  let d := d.setBstr n { x with
    buf := some b, flush := x.flush || seFlush r
    slots := x.slots ++ [{ err := err, tag := wordAt r 0x30, time := (r.drop 0x38).take 8, count := c }] }
  let d := if err = seOK then d else d.addReg (Reg.TAU_BSTRn_CORRUPT n) 1
  d.addReg (Reg.TAU_BSTRn_SAMPLE_CONS n) 1

/-- The batch in progress is due to be emitted. -/
def BStr.due (x : BStr) : Bool := x.buf.isSome && (x.flush || decide (bsN x.desc ≤ x.slots.length))

/-- The stream's head entry and its batch's buffer, where an entry can take a slot. -/
def Dev.bsCan (d : Dev) (n : Nat) : Option (List Byte) :=
  if (d.bstr n).on && !(d.bstr n).due && d.bsRoom n then d.bsHead n else none

/-- The head entry waits on its flag; an entry that is bad does not wait. -/
def Dev.bsWaits (d : Dev) (n : Nat) (r : List Byte) : Bool :=
  seWait r && !d.flag (seFlag r) && !badSample (d.bstr n).desc r

/-- Whose turn it is (R279). -/
def Dev.bsTurn (d : Dev) : Option Nat :=
  roundRobin 64 d.med.tauLast (fun n => match d.bsCan n with
    | some r => !d.bsWaits n r
    | none => false)

/-- SAMPLE of stream n. An entry that waits on its flag takes its slot, and the batch its buffer. -/
def execSample (n : Fin 64) (s : State) := act s (fun d =>
  match d.bsCan n with
  | none => d
  | some r =>
    let x := d.bstr n
    if d.bsWaits n r then d.setBstr n { x with buf := some (x.buf.getD x.nextBuf) }
    else if d.bsTurn ≠ some n.val then d
    else
      let d := d.updMed (fun m => { m with tauLast := n.val })
      d.takeSlot n r (if badSample x.desc r then seBAD_ENTRY else d.slotCode (agentBstr n) r))

/-- WAIT_EXPIRED of stream n. -/
def execWaitExpired (n : Fin 64) (s : State) := act s (fun d =>
  match d.bsCan n with
  | none => d
  | some r =>
    if d.bsWaits n r && decide (bsWait (d.bstr n).desc ≠ 0) then d.takeSlot n r seWAIT_EXPIRED else d)

/-- A batch record (Table 9.11). -/
def batchRecord (l : List Byte) (seq first : Word) (t : Dword) (timed flushed : Bool) (slots : List BSlot) : List Byte :=
  let k := bsN l
  let ok := (List.range k).filter (fun (i : Nat) => (slots.getD i { err := seEMPTY, tag := 0, time := [], count := 0 }).err = seOK)
  let slot (i : Nat) : BSlot := slots.getD i { err := if i < k then seEMPTY else 0, tag := 0, time := leBytes 8 0, count := 0 }
  leBytes 4 seq.toNat ++ leBytes 4 (k + ok.length * 256 + b2n timed * 65536 + b2n flushed * 131072) ++
  leBytes 8 (ok.foldl (fun (x i : Nat) => x + pow2 i) 0) ++ leBytes 8 t.toNat ++ leBytes 4 first.toNat ++ leBytes 36 0 ++
  (List.range 64).map (fun (i : Nat) => BitVec.ofNat 8 (slot i).err) ++
  (List.range 64).foldr (fun (i : Nat) (acc : List Byte) => leBytes 4 (slot i).tag ++ acc) [] ++
  (List.range 64).foldr (fun (i : Nat) (acc : List Byte) => (slot i).time ++ acc) [] ++ leBytes 128 0

/-- Settings take effect on batch stream n. DESIGN CHOICE: where NBATCH has become smaller than the next buffer's number the ring
goes on at buffer 0. -/
def Dev.setBatch (d : Dev) (n : Nat) (y : EngNext) : Dev :=
  let x := d.bstr n
  let l := y.desc
  if !y.en then d.setBstr n { x with on := false, desc := l, last := l, next := none }
  else if !y.fresh then
    d.setBstr n { x with desc := l, last := l, next := none, nextBuf := if x.nextBuf < bsNbatch l then x.nextBuf else 0 }
  else
    let d := d.setBstr n { on := true, desc := l, last := l }
    (d.setReg (Reg.TAU_BSTRn_SAMPLE_CONS n) (d.bsProd n)).setReg (Reg.TAU_BSTRn_SEQ n) 0

/-- The batch in progress is emitted (R278). -/
def Dev.emitBatch (d : Dev) (n : Nat) (timed : Bool) : Dev :=
  let x := d.bstr n
  let l := x.desc
  let ag := agentBstr n
  let b := x.buf.getD x.nextBuf
  let seq := d.reg (Reg.TAU_BSTRn_SEQ n)
  let pad := d.padContent ag l
  let d := (List.range (bsN l - x.slots.length)).foldl (fun (d : Dev) (i : Nat) => d.putSlot n b (x.slots.length + i) l pad) d
  let first := match x.slots with
    | y :: _ => y.count
    | [] => x.first
  let d := (d.engineStore ag (addrAt l 0x48 + 1024 * b) (batchRecord l seq first d.time timed x.flush x.slots)).release ag
  let d := d.setBstr n { x with
    buf := none, slots := [], flush := false, first := first
    nextBuf := (b + 1) % Nat.max 1 (bsNbatch l), bufs := Tbl.set x.bufs b seq.toNat }
  let d := d.addReg (Reg.TAU_BSTRn_SEQ n) 1
  let d := if timed then d.addReg (Reg.TAU_BSTRn_TIMEOUTS n) 1 else d
  let d := if bsFlag l + b < nFlags then (d.setFlag (bsFlag l + b)).stir false else d
  match x.next with
  | some y => d.setBatch n y
  | none => d

/-- BATCH_EMIT of stream n. -/
def execBatchEmit (n : Fin 64) (s : State) := act s (fun d =>
  if (d.bstr n).on && (d.bstr n).due then d.emitBatch n false else d)

/-- BATCH_TIMEOUT of stream n: its timer runs from the assignment of slot 0 to an entry. -/
def execBatchTimeout (n : Fin 64) (s : State) := act s (fun d =>
  let x := d.bstr n
  if x.on && decide (bsTimeout x.desc ≠ 0) && (x.buf.isSome || (d.bsCan n).isSome) then d.emitBatch n true else d)

/-- A commit has changed EN or the descriptor of batch stream n (R262, R276): a batch in progress ends under the old
settings, at once where EN is cleared. -/
def Dev.bstrCommit (d : Dev) (n : Nat) (desc : Option (List Byte)) : Dev :=
  let x := d.bstr n
  let en := decide (d.fld (Reg.TAU_BSTRn_CTRL n) Fld.TAU_BSTRn_CTRL_EN = 1)
  let l := desc.getD x.last
  let y := EngNext.after x.next x.on en l
  if x.on && !x.slots.isEmpty then d.setBstr n { x with last := l, flush := x.flush || !en, next := some y }
  else (d.setBstr n { x with buf := none }).setBatch n y

/-- The stream whose batch is due and lacks samples, so that pads are built. -/
def Dev.padTurn (d : Dev) : Option Nat :=
  roundRobin 64 d.med.tauLast (fun n =>
    (d.bstr n).on && (d.bstr n).due && decide ((d.bstr n).slots.length < bsN (d.bstr n).desc))

/-- TAU_STATUS. A sample, and a batch's pads, are built in one step: between two steps the stream whose turn it is reads as the
work in progress. -/
def Dev.tauStatus (d : Dev) : Word :=
  match d.bsTurn <|> d.padTurn with
  | some n => BitVec.ofNat 32 (1 + n * 256)
  | none => 0

/-- TAU_BSTRn_STATUS. -/
def Dev.bstrStatus (d : Dev) (n : Nat) : Word :=
  let x := d.bstr n
  let wait := match d.bsCan n with
    | some r => d.bsWaits n r
    | none => false
  let st := if !x.on then 0 else if x.buf.isSome then 2 else if !d.bsRoom n then 3 else 1
  BitVec.ofNat 32 (st + b2n wait * 4)

end Sys2Proof.Machine
end

