-- ==== Sys2Proof/Machine/FabricSend.lean ====
section
/-! DEFINITION. The fabric's send rings and its time (R396 to R399, R404 to R406). -/

namespace Sys2Proof.Machine

/-! ### Send rings (R396 to R399) -/

/-- The fields of a send descriptor (Table 14.5). -/
structure SendFields where
  op : Nat
  mc : Bool
  waitEn : Bool
  lflagEn : Bool
  dst : Nat
  group : Nat
  src : Nat
  raddr : Nat
  len : Nat
  rflag : Nat
  waitFlag : Nat
  lflag : Nat
  deriving DecidableEq, Repr

def sendFields (l : List Byte) : SendFields :=
  let w (i : Nat) := wordAt l i
  { op := bits (w 0) 0 4, mc := bit (w 0) 4, waitEn := bit (w 0) 5, lflagEn := bit (w 0) 6,
    dst := bits (w 4) 0 12, group := bits (w 4) 12 8, src := w 8 + bits (w 0xC) 0 16 * pow2 32,
    raddr := w 0x10 + bits (w 0x14) 0 16 * pow2 32, len := bits (w 0x18) 0 25, rflag := bits (w 0x1C) 0 18,
    waitFlag := bits (w 0x20) 0 18, lflag := bits (w 0x24) 0 18 }

/-- A reserved field is not 0. -/
def sendReserved (l : List Byte) : Bool :=
  let w (i : Nat) := wordAt l i
  decide (bits (w 0) 7 25 ≠ 0 ∨ bits (w 4) 20 12 ≠ 0 ∨ bits (w 0xC) 16 16 ≠ 0 ∨ bits (w 0x14) 16 16 ≠ 0 ∨
    bits (w 0x18) 25 7 ≠ 0 ∨ bits (w 0x1C) 18 14 ≠ 0 ∨ bits (w 0x20) 18 14 ≠ 0 ∨ bits (w 0x24) 18 14 ≠ 0 ∨
    bits (w 0x28) 8 24 ≠ 0 ∨ w 0x30 ≠ 0 ∨ w 0x34 ≠ 0 ∨ w 0x38 ≠ 0 ∨ w 0x3C ≠ 0)

/-- It writes data: WRITE and WRITE_FLAG. -/
def SendFields.writes (x : SendFields) : Bool := x.op = 1 || x.op = 3

/-- Pieces of a WRITE: offset and length, none across a 512-byte boundary of RADDR (R397). -/
def cutPieces (raddr : Nat) : Nat → Nat → Nat → List (Nat × Nat)
  | 0, _, _ => []
  | n + 1, off, left =>
    if left = 0 then []
    else
      let k := Nat.min left (512 - (raddr + off) % 512)
      (off, k) :: cutPieces raddr n (off + k) (left - k)

/-- The packets of a descriptor, without ESEQ. -/
def Dev.sendPackets (d : Dev) (r : Nat) (x : SendFields) : List FPkt :=
  let base : FPkt := { ty := tyWrite, mcast := x.mc, dst := x.dst, src := d.fabId, group := if x.mc then x.group else 0, ring := r }
  let ws := if x.writes then
      (cutPieces x.raddr (x.len / 512 + 2) 0 x.len).map (fun e =>
        { base with addr := (x.raddr + e.1) % pow2 48, payload := d.bytes agentFab (x.src + e.1) e.2 })
    else []
  if x.op = 1 then ws else ws ++ [{ base with ty := tyFlag, addr := x.rflag }]

/-- One packet of descriptor `idx` takes its ESEQ and goes to its queue, or to this device (R393). -/
def Dev.sendOne (d : Dev) (r idx : Nat) (k : FPkt) : Dev :=
  if k.mcast then d.mcastIn none k (some (r, idx))
  else
    let x := d.sring r
    let k := { k with eseq := Tbl.getD x.seqs k.dst 0, start := !x.begun.contains k.dst }
    let d := d.updSring r (fun x => { x with
      seqs := Tbl.set x.seqs k.dst ((k.eseq + 1) % 65536), begun := insertNat k.dst x.begun,
      unacked := x.unacked ++ [(idx, k)] })
    (d.queueUni k none (r + 1)).1

/-- The ring may start its next descriptor: enabled, running, and PROD ahead of it. -/
def Dev.ringReady (d : Dev) (r : Nat) : Bool :=
  let prod := leNat (d.bytes agentFab (d.reg64 (Reg.FAB_SRINGr_PROD_LO r) (Reg.FAB_SRINGr_PROD_HI r)) 4)
  decide (d.fld (Reg.FAB_SRINGr_CTRL r) Fld.FAB_SRINGr_CTRL_EN = 1) && d.ringRuns r && !d.isolated && !d.fw.stopping &&
    countAhead (BitVec.ofNat 32 (d.sring r).next) (BitVec.ofNat 32 prod)

/-- A descriptor is started: its packets go to their queues. -/
def Dev.sendStart (d : Dev) (r idx off : Nat) (x : SendFields) : Dev :=
  let d := d.countRd off 64
  let d := if x.writes then d.countRd x.src x.len else d
  let ks := d.sendPackets r x
  let d := d.updSring r (fun y => { y with
    next := (idx + 1) % pow2 32
    descs := y.descs ++ [{ idx := idx, off := off, mc := x.mc, lflag := if x.lflagEn then some x.lflag else none }] })
  (ks.foldl (fun d k => d.sendOne r idx k) d).settle

/-- A send operation of a ring: its next descriptor, if it is of the operation named; a descriptor that fails its checks
stops the ring whatever its OP, and so does one that cannot be read. -/
def Dev.sendStep (d : Dev) (r op : Nat) : Dev :=
  if d.ringReady r = false then d
  else
    let idx := (d.sring r).next
    let off := d.ringAddr r idx
    let raw := d.bytes agentFab off 64
    let x := sendFields raw
    match d.poisoned off 64 with
    | some a => (d.eccEvent none (addrUnit a) a).ringFail r off 4
    | none =>
      if x.waitEn ∧ d.flag x.waitFlag = false then d
      else if sendReserved raw ∨ x.op = 0 ∨ 3 < x.op ∨ (x.writes ∧ (x.len = 0 ∨ 16777216 < x.len)) then d.ringFail r off 2
      else if x.op ≠ op then d
      else if x.writes ∧ (d.firstBad x.src x.len).isSome then d.ringFail r off 3
      else match (if x.writes then d.poisoned x.src x.len else none) with
        | some a => (d.eccEvent none (addrUnit a) a).ringFail r off 4
        | none => d.sendStart r idx off x

def execSendWrite (r : Fin 16) (s : State) := act s (fun d => d.sendStep r 1)
def execSendFlag (r : Fin 16) (s : State) := act s (fun d => d.sendStep r 2)
def execSendWriteFlag (r : Fin 16) (s : State) := act s (fun d => d.sendStep r 3)

/-- SEND_COMPLETE: the oldest descriptor, once its packets are acknowledged or have entered every output queue. -/
def execSendComplete (r : Fin 16) (s : State) := act s (fun d =>
  match (d.sring r).descs with
  | [] => d
  | x :: t =>
    let open_ := if x.mc then d.fab.mwait.any (fun w => w.ring = some (r.val, x.idx))
      else (d.sring r).unacked.any (fun e => e.1 = x.idx)
    if open_ then d
    else
      let d := d.updSring r (fun y => { y with descs := t })
      let d := ((d.store agentFab (x.off + 0x28) [1]).release agentFab).addReg (Reg.FAB_SRINGr_CONS r) 1
      match x.lflag with
      | some f => (d.setFlag f).stir false
      | none => d)

/-- RESEND_TIMEOUT: ACK_US without progress; the sixteenth in a row fails the descriptor. -/
def execResendTimeout (r : Fin 16) (s : State) := act s (fun d =>
  match (d.sring r).unacked with
  | [] => d
  | e :: _ =>
    let d := d.updSring r (fun x => { x with periods := x.periods + 1 })
    if 16 ≤ (d.sring r).periods then
      match (d.sring r).descs.find? (fun s => s.idx = e.1) with
      | some s => d.ringFail r s.off 6
      | none => d
    else (d.resendRing r (fun _ => true)).settle)

/-- A commit touches a ring; `sets`: it writes CTRL. One that clears EN stops the ring, and one that sets EN starts it, again
where it has stopped (R399). -/
def Dev.ringCommit (d : Dev) (r : Nat) (sets : Bool) : Dev :=
  let st := d.fld (Reg.FAB_SRINGr_STATUS r) Fld.FAB_SRINGr_STATUS_STATE
  if d.fld (Reg.FAB_SRINGr_CTRL r) Fld.FAB_SRINGr_CTRL_EN = 0 then
    (d.setFld (Reg.FAB_SRINGr_STATUS r) Fld.FAB_SRINGr_STATUS_STATE 0).updSring r (fun x => { x with descs := [], unacked := [], periods := 0 })
  else if st = 1 ∨ !sets then d
  else
    let a := d.reg64 (Reg.FAB_SRINGr_PROD_LO r) (Reg.FAB_SRINGr_PROD_HI r)
    let again := (d.sring r).used
    let d := d.setFld (Reg.FAB_SRINGr_STATUS r) Fld.FAB_SRINGr_STATUS_STATE 1
    let d := d.updSring r (fun x => { x with used := true, begun := [], descs := [], unacked := [], periods := 0 })
    if !again then d
    else if (d.firstBad a 4).isSome then d.ringStop r 3
    else match d.poisoned a 4 with
      | some b => (d.eccEvent none (addrUnit b) b).ringStop r 4
      | none =>
        let n := leNat (d.bytes agentFab a 4)
        (d.setReg (Reg.FAB_SRINGr_CONS r) (BitVec.ofNat 32 n)).updSring r (fun x => { x with next := n })

/-! ### Time over the fabric (R404 to R406) -/

/-- A time packet is queued; `sub`: the VCLK edges to its departure, if it leaves at once. -/
def Dev.queueTime (d : Dev) (p : Nat) (k : FPkt) (sub : Nat) : Dev :=
  (d.updFport p (fun x => { x with time := x.time ++ [{ k := { k with vc := 1, src := d.fabId }, at_ := some (d.ctr, sub) }] })).pumpAll

/-- TIME_SYNC_SEND: from the root on each port, from a follower on each port but its parent's. -/
def execTimeSyncSend (sub : Fin 8) (s : State) := act s (fun d =>
  let valid := if d.isRoot then decide (d.fld Reg.CPS_STATUS Fld.CPS_STATUS_VALID = 1) else d.fab.rootValid
  let locked := if d.isRoot then decide (d.ppsState = 2) else d.fab.rootLocked
  let pay := leBytes 8 0 ++ leBytes 8 (b2n valid * 8 + b2n locked * 16)
  (List.range 4).foldl (fun d p =>
    if d.linkUp p && (d.isRoot || (d.follower && decide (p ≠ d.parent))) then
      d.queueTime p { ty := tyTimeSync, payload := pay } sub
    else d) d)

/-- DELAY_MEASURE: a port sends TIME_REQ with its departure time. -/
def execDelayMeasure (p : Fin 4) (sub : Fin 8) (s : State) := act s (fun d =>
  if d.linkUp p then d.queueTime p { ty := tyTimeReq } sub else d)

/-- TIME_REQ: answered with the arrival of the request and the departure of the response. -/
def execTimeReq (p : Fin 4) (k : FPkt) (subIn subOut : Fin 8) (s : State) := act s (fun d =>
  d.receive p k (fun d =>
    let d := d.owe (some p.val) k
    if k.resv then d.dropPkt
    else d.queueTime p { ty := tyTimeRsp, stamps := [d.stamp8 subIn] } subOut))

/-- TIME_RSP: a measurement; the delay is the mean of the last 8. -/
def execTimeRsp (p : Fin 4) (k : FPkt) (sub : Fin 8) (s : State) := act s (fun d =>
  d.receive p k (fun d =>
    let d := d.owe (some p.val) k
    if k.resv then d.dropPkt
    else match (d.fport p).t1, k.stamps with
      | some t1, [t2, t3] =>
        let m2 : Int := ((d.stamp8 sub : Int) - t1) - ((t3 : Int) - t2)
        let l := (m2 :: (d.fport p).delays).take 8
        let d := d.updFport p (fun x => { x with t1 := none, delays := l })
        let den : Int := (2 * l.length : Nat)
        let tot := l.foldl (· + ·) 0
        let mean := tot / den + b2n (decide (tot % den ≠ 0) && Config.freeBit d.ctr 12)
        d.setReg (Reg.FAB_PORTp_DELAY p) (BitVec.ofNat 32 (unsgn 24 mean))
      | _, _ => d))

/-- Steering by an accepted message with error `e` in ns (R406). -/
def Dev.followTime (d : Dev) (e : Int) : Dev :=
  let jump := !d.fab.synced || decide (1000 < e.natAbs)
  let d := d.timeValid
  let d :=
    if jump then (d.stepTime (-e)).updFab (fun x => { x with synced := true, integ := 0 })
    else
      let i := clampI (-1048576) 1048576 (d.fab.integ + e)
      (d.updFab (fun x => { x with integ := i })).setRate (-10737 * e - 1342 * i)
  let run := if e.natAbs ≤ 20 then d.fab.lockRun + 1 else 0
  let d := d.updFab (fun x => { x with lockRun := run })
  if 200 < e.natAbs then d.setFld Reg.FAB_STATUS Fld.FAB_STATUS_SYNC_LOCKED 0
  else if 10 ≤ run then d.setFld Reg.FAB_STATUS Fld.FAB_STATUS_SYNC_LOCKED 1
  else d

/-- TIME_SYNC: accepted only from the parent port and with ROOT_VALID set. -/
def execTimeSync (p : Fin 4) (k : FPkt) (sub : Fin 8) (s : State) := act s (fun d =>
  d.receive p k (fun d =>
    let d := d.owe (some p.val) k
    let ts := wordAt k.payload 0 + wordAt k.payload 4 * pow2 32
    let w := wordAt k.payload 8
    if k.resv ∨ bits w 5 27 ≠ 0 ∨ wordAt k.payload 12 ≠ 0 then d.dropPkt
    else if d.follower && decide (d.parent = p.val) && bit w 3 then
      let e8 : Int := (d.stamp8 sub : Int) -
        (8 * ts + 10 * bits w 0 3 + d.fld (Reg.FAB_PORTp_DELAY p) Fld.FAB_PORTp_DELAY_DELAY : Nat)
      let e := e8 / 8 + b2n (decide (e8 % 8 ≠ 0) && Config.freeBit d.ctr 13)
      (d.updFab (fun x => { x with rootValid := true, rootLocked := bit w 4 })).followTime e
    else d))

/-! ### Commits (R392, R407) -/

/-- A commit changed FAB_CFG from `old`. -/
def Dev.fabCfgCommit (d : Dev) (old : Word) : Dev :=
  let d := (List.range 4).foldl (fun d p =>
    let was := bit (Fld.FAB_CFG_PORT_EN.get old) p
    if d.portEnabled p && !was then (if d.linkState p = 0 then d.setReg (Reg.FAB_PORTp_STATUS p) 1 else d)
    else if !d.portEnabled p && was then d.takeDown p
    else d) d
  let d := if Fld.FAB_CFG_FAB_ID.get old = d.fabId then d else d.setFld Reg.FAB_STATUS Fld.FAB_STATUS_ISOLATED 0
  if Fld.FAB_CFG_FAB_ID.get old = d.fabId ∧ Fld.FAB_CFG_PRIORITY.get old = d.fabPrio then d
  else
    let d := (List.range 4).foldl (fun d p => d.updFport p (fun x => { x with advert := none })) d
    (d.updFab (fun x => { x with forgot := [] })).elect

end Sys2Proof.Machine
end

