-- ==== Sys2Proof/Machine/Port.lean ====
section
/-! DEFINITION. The host ports: attaching, heartbeats, loss and return (R281, R308 to R312). -/

namespace Sys2Proof.Machine

/-! ### Loss (R310) -/

/-- An entry without a result gets one. -/
def Entry.conclude (e : Entry) (r : JobResult) : Entry := if e.result = none then { e with result := some r } else e

/-- A running job stops after its next LAYER with a result, unless it is to stop with one that ranks first. -/
def Dev.stopLater (d : Dev) (q count : Nat) (r : JobResult) : Dev :=
  match d.jobFor q count with
  | some (l, _) => d.updJob l (fun j => { j with stopAfter := some (r.first j.stopAfter) })
  | none => d

/-- Everything of a queue ends with a status: running jobs after their next LAYER, what has not started now. -/
def Dev.drainQueue (d : Dev) (q st : Nat) : Dev :=
  let x := d.queue q
  let d := x.entries.foldl (fun (d : Dev) (e : Entry) => if e.started && e.result.isNone then d.stopLater q e.count { status := st } else d) d
  d.updQueue q (fun x => { x with
    entries := x.entries.map (fun (e : Entry) => if e.started then e else e.conclude { status := st })
    cut := if x.sqCons = x.sqTail then none else some (x.sqTail, st) })

/-- A queue of a lost port that is not PERSIST. -/
def Dev.orphanQueue (d : Dev) (q : Nat) : Dev :=
  (d.drainQueue q stOrphan).updQueue q (fun x => { x with state := if x.running = 0 then .parked else .draining })

/-- The general queues of a port, FREE queues apart. -/
def Dev.queuesOf (d : Dev) (p : Port) : List Nat :=
  ((d.queues.filter (fun (e : Nat × Queue) => !isAdmin e.1 && decide (e.2.state ≠ .free))).map (·.1)).filter
    (fun q => decide (d.owner 0 q = some p))

/-- A port is lost. One that a driver has attached reads LOST from then on; its admin queue, which nothing reads any more, is
PARKED (Table 10.6). -/
def Dev.losePort (d : Dev) (p : Port) : Dev :=
  let d := (List.range 64).foldl (fun d n => d.semFree p n) d
  let dropped := (d.port p).checking.any (fun (c : Checking) => c.apply)
  let d := if dropped then d.setFldP p Reg.GLB_COMMIT_STATUS Fld.GLB_COMMIT_STATUS_CODE 0x10 else d
  let d := if (d.port p).attached then d.updQueue p.idx (fun x => { x with state := .parked }) else d
  let d := d.updPort p (fun x => { x with
    attached := false, lost := x.attached || x.lost, stage := []
    checking := x.checking.filter (fun (c : Checking) => !c.apply) })
  let d := ((d.queuesOf p).filter (fun q => !(d.queue q).persist)).foldl (fun d q => d.orphanQueue q) d
  d.portEvent p.other Fld.HPx_EVENT_PEER_LOST

/-- The port's snapshot. -/
def State.snap (s : State) : Port → Snap
  | .a => s.snapA
  | .b => s.snapB

def State.setSnap (s : State) (p : Port) (x : Snap) : State :=
  match p with
  | .a => { s with snapA := x }
  | .b => { s with snapB := x }

/-- A port that is lost has no snapshot any more (Table 1.6, SNAP_NONE). DESIGN CHOICE: GLB_SNAP_TIME keeps the time of the
last capture, of which the spec says nothing. -/
def State.losePort (s : State) (p : Port) : State :=
  { s.setSnap p {} with dev := (s.dev.losePort p).setRegP p Reg.GLB_SNAP_STATUS 0x20 }

/-- HEARTBEAT: a write of HPx_HEARTBEAT. -/
def execHeartbeat (p : Port) (s : State) := act s (fun d => d.updPort p (fun x => { x with beat := d.ticks }))

/-- HEARTBEAT_TIMEOUT: 3 × HPx_HB_INTERVAL without a beat, which is watched on an attached port. -/
def execHeartbeatTimeout (p : Port) (s : State) := actAll s (fun s =>
  if (s.dev.port p).attached then s.losePort p else s)

/-- HOST_LINK_DOWN: a link-down or a hot reset of a port with a link is its loss (R281), attached or not. -/
def execHostLinkDown (p : Port) (s : State) := actAll s (fun s =>
  let s := if (s.dev.port p).linkUp then s.losePort p else s
  { s with dev := s.dev.updPort p (fun x => { x with linkUp := false }) })

/-- HP-B is strapped off (R463). -/
def Dev.portOff (d : Dev) (p : Port) : Bool := decide (p = .b) && bit d.keep.straps.toNat 3

/-- HOST_LINK_UP: the links are released by the boot ROM. -/
def execHostLinkUp (p : Port) (s : State) := act s (fun d =>
  if d.portOff p || !d.fw.booted then d else d.updPort p (fun x => { x with linkUp := true }))

/-! ### ATTACH and REATTACH (R308, R311) -/

/-- A ring of 2^log entries: in LPDDR6 or the Hamper, outside the reserved regions, aligned (R293). -/
def Dev.ringOk (d : Dev) (base log size : Nat) : Bool :=
  decide (4 ≤ log ∧ log ≤ 16 ∧ base % size = 0) && !isCoreMem base && (d.firstBad base (size * pow2 log)).isNone

/-- The admin rings that a port's registers give: SQ base, SQ log2, CQ base, CQ log2. -/
def Dev.adminRing (d : Dev) (p : Port) : Nat × Nat × Nat × Nat :=
  (d.reg64 (Reg.HPx_ASQ_BASE_LO p.idx) (Reg.HPx_ASQ_BASE_HI p.idx), d.fld (Reg.HPx_AQ_SIZE p.idx) Fld.HPx_AQ_SIZE_SQ_LOG2,
   d.reg64 (Reg.HPx_ACQ_BASE_LO p.idx) (Reg.HPx_ACQ_BASE_HI p.idx), d.fld (Reg.HPx_AQ_SIZE p.idx) Fld.HPx_AQ_SIZE_CQ_LOG2)

def Dev.adminRingOk (d : Dev) (p : Port) : Bool :=
  let r := d.adminRing p
  d.ringOk r.1 r.2.1 64 && d.ringOk r.2.2.1 r.2.2.2 32

/-- HPx_ATTACH_STATUS CODE (Table 10.10). -/
def Dev.attachCode (d : Dev) (p : Port) (abi : BitVec 16) (again : Bool) : Nat :=
  let x := d.port p
  if !d.fwRunning then 3
  else if abi.toNat ≠ d.fld (Reg.HPx_FW_ABI p.idx) Fld.HPx_FW_ABI_ABI then 2
  else if (if again then x.lost && x.linkUp && !x.attached else decide (x.state = 1)) = false then 3
  else if !d.adminRingOk p then 4
  else 1

/-- ATTACH or REATTACH of a port. -/
def Dev.attach (d : Dev) (p : Port) (abi : BitVec 16) (again : Bool) : Dev :=
  let k := d.attachCode p abi again
  let d := d.setReg (Reg.HPx_ATTACH_STATUS p.idx) (BitVec.ofNat 32 k)
  if k ≠ 1 then d
  else
    let r := d.adminRing p
    let d := d.updQueue p.idx (fun x =>
      let x : Queue := if again then x else {}
      { x with state := .active, sqBase := r.1, sqLog := r.2.1, cqBase := r.2.2.1, cqLog := r.2.2.2 })
    (d.updPort p (fun x => { x with attached := true, lost := false })).portEvent p.other Fld.HPx_EVENT_PEER_ATTACHED

def execAttach (p : Port) (abi : BitVec 16) (s : State) := act s (fun d => d.attach p abi false)
def execReattach (p : Port) (abi : BitVec 16) (s : State) := act s (fun d => d.attach p abi true)

end Sys2Proof.Machine
end

