-- ==== Sys2Proof/Machine/Sha3.lean ====
section
/-! DEFINITION. SHA3-256, which the spec names and takes from the standard FIPS 202 (R410, R411, R419, R420, R422). PRESUMED: the
function itself is that standard's. A digest is held as the number whose little-endian bytes it is. -/

namespace Sys2Proof.Machine

/-- The rotation of lane (x, y), at x + 5y. -/
def sha3Rot : List Nat :=
  [0, 1, 62, 28, 27, 36, 44, 6, 55, 20, 3, 10, 43, 25, 39, 41, 45, 15, 21, 8, 18, 2, 61, 56, 14]

/-- The constants of the 24 rounds. -/
def sha3Rc : List Dword :=
  [0x0000000000000001, 0x0000000000008082, 0x800000000000808A, 0x8000000080008000, 0x000000000000808B, 0x0000000080000001,
   0x8000000080008081, 0x8000000000008009, 0x000000000000008A, 0x0000000000000088, 0x0000000080008009, 0x000000008000000A,
   0x000000008000808B, 0x800000000000008B, 0x8000000000008089, 0x8000000000008003, 0x8000000000008002, 0x8000000000000080,
   0x000000000000800A, 0x800000008000000A, 0x8000000080008081, 0x8000000000008080, 0x0000000080000001, 0x8000000080008008]

/-- Lane (x, y) of the 25, both taken mod 5. -/
def sha3Lane (a : List Dword) (x y : Nat) : Dword := a.getD (x % 5 + 5 * (y % 5)) 0

/-- The parity of a column. -/
def sha3Col (a : List Dword) (x : Nat) : Dword :=
  sha3Lane a x 0 ^^^ sha3Lane a x 1 ^^^ sha3Lane a x 2 ^^^ sha3Lane a x 3 ^^^ sha3Lane a x 4

/-- The lanes of a state, from what each is. -/
def sha3Lanes (f : Nat → Nat → Dword) : List Dword := (List.range 25).map (fun (i : Nat) => f (i % 5) (i / 5))

/-- θ: every lane with the parities of the columns beside it. -/
def sha3Theta (a : List Dword) : List Dword :=
  sha3Lanes (fun x y => sha3Lane a x y ^^^ sha3Col a (x + 4) ^^^ (sha3Col a (x + 1)).rotateLeft 1)

/-- ρ and π: every lane rotated and moved. -/
def sha3Move (a : List Dword) : List Dword :=
  sha3Lanes (fun x y => (sha3Lane a (x + 3 * y) x).rotateLeft (sha3Rot.getD ((x + 3 * y) % 5 + 5 * x) 0))

/-- χ, and ι in lane (0, 0). -/
def sha3Chi (c : Dword) (a : List Dword) : List Dword :=
  sha3Lanes (fun x y =>
    sha3Lane a x y ^^^ (~~~ sha3Lane a (x + 1) y &&& sha3Lane a (x + 2) y) ^^^ (if x = 0 ∧ y = 0 then c else 0))

/-- The permutation of 24 rounds. -/
def sha3Perm (a : List Dword) : List Dword := sha3Rc.foldl (fun (a : List Dword) (c : Dword) => sha3Chi c (sha3Move (sha3Theta a))) a

/-- Bytes per block. -/
def sha3Rate : Nat := 136

/-- The message with its padding. -/
def sha3Pad (l : List Byte) : List Byte :=
  let k := sha3Rate - l.length % sha3Rate
  if k = 1 then l ++ [0x86] else l ++ 0x06 :: List.replicate (k - 2) 0 ++ [0x80]

/-- The next `k` blocks of the padded message go into the state. -/
def sha3Absorb : Nat → List Dword → List Byte → List Dword
  | 0, a, _ => a
  | k + 1, a, l =>
    sha3Absorb k (sha3Perm ((List.range 25).map (fun (i : Nat) =>
      a.getD i 0 ^^^ BitVec.ofNat 64 (leNat ((l.take sha3Rate).drop (8 * i) |>.take 8))))) (l.drop sha3Rate)

/-- SHA3-256. -/
def sha3 (l : List Byte) : BitVec 256 :=
  let p := sha3Pad l
  let a := sha3Absorb (p.length / sha3Rate) (List.replicate 25 0) p
  BitVec.ofNat 256 ((List.range 4).foldr (fun (i : Nat) (acc : Nat) => (a.getD i 0).toNat + 18446744073709551616 * acc) 0)

end Sys2Proof.Machine
end

