-- ==== Sys2Proof/Machine/Admin.lean ====
section
/-! DEFINITION. The admin commands of queues, contexts and ownership, and PREPARE_OFF (R290, R291, R306, R307, R312, R432). -/

namespace Sys2Proof.Machine

/-! ### Execution (R306, R307, R415) -/

/-- How an admin command ends: it fails with a completion and changes nothing, it fails and leaves a result code, it completes
DONE with AUX, or it goes on. -/
inductive AdminRes where
  | fail (r : JobResult)
  | ended (r : JobResult) (d : Dev)
  | done (aux : Nat) (d : Dev)
  | busy (d : Dev)
  deriving Repr

def notOwner : AdminRes := .fail { status := stNotOwner }
/-- ERR_BAD_ENTRY with a detail code. -/
def detail (k : Nat) : AdminRes := .fail { status := stBadEntry, aux := BitVec.ofNat 32 k }
def adFIELD : Nat := 1
def adIN_USE : Nat := 2
def adNOT_FOUND : Nat := 3
def adBAD_STATE : Nat := 4
def adNO_SEM : Nat := 5
def adPEER : Nat := 6
def adBASKET : Nat := 7

/-- A reserved field that is not 0 fails a command, after the owner of its object (R307). -/
def AdminRes.afterFields (r : AdminRes) (bad : Bool) : AdminRes :=
  match r with
  | .fail x => if bad && decide (x.status ≠ stNotOwner) then detail adFIELD else .fail x
  | r => if bad then detail adFIELD else r

/-- The head entry of a port's admin queue, where firmware can execute it: of OP `op`, and a completion slot is free. -/
def Dev.adminHead (d : Dev) (p : Port) (op : Nat) : Option Entry :=
  let x := d.queue p.idx
  if !d.fwRunning || !d.awake || !(d.port p).attached || decide (x.freeSlots = 0) then none
  else match x.entries with
    | e :: _ => if e.result = none ∧ e.op = op then some e else none
    | [] => none

/-- The completion of the head entry: written in the same step as its effect (R415). -/
def Dev.adminEnd (d : Dev) (q count : Nat) (r : JobResult) : Dev := (d.finish q count r).deliverDone q

/-- An admin command of a port: `f` gives its effect from the entry's bytes. -/
def Dev.admin (d : Dev) (p : Port) (op : Nat) (f : List Byte → AdminRes) : Dev :=
  match d.adminHead p op with
  | none => d
  | some e =>
    match (f e.raw).afterFields (badAdmin e.raw) with
    | .fail r => d.adminEnd p.idx e.count r
    | .ended r d' => d'.adminEnd p.idx e.count r
    | .done aux d' => d'.adminEnd p.idx e.count { status := stDone, aux := BitVec.ofNat 32 aux }
    | .busy d' => d'

/-- A command that needs SEM0. -/
def Dev.adminSem (d : Dev) (p : Port) (op : Nat) (f : List Byte → AdminRes) : Dev :=
  d.admin p op (fun raw => if d.holdsSem0 p then f raw else detail adNO_SEM)

/-! ### Queues (R293, Tables 10.6 and 10.7) -/

/-- CREATE_QUEUE. -/
def execCreateQueue (p : Port) (s : State) := act s (fun d => d.admin p 0x01 (fun raw =>
  let q := fldAt raw 0x10 0 16
  let sq := fldAt raw 0x14 0 5
  let cq := fldAt raw 0x14 8 5
  let vec := fldAt raw 0x14 16 11
  if d.owner 0 q = some p.other then notOwner
  else if isAdmin q || decide (vec = 0) || !d.ringOk (addrAt raw 0x18) sq 64 || !d.ringOk (addrAt raw 0x20) cq 32 then detail adFIELD
  else if (d.queue q).state ≠ .free then detail adIN_USE
  else
    let x : Queue := {
      state := .active, persist := bit (wordAt raw 0x10) 16, vector := vec, sqBase := addrAt raw 0x18, cqBase := addrAt raw 0x20
      sqLog := sq, cqLog := cq, icCount := fldAt raw 0x28 0 16, icUsec := fldAt raw 0x28 16 16 }
    .done 0 ({ d with queues := Tbl.set d.queues q x }.setOwner 0 q p)))

/-- A command of a port about an existing general queue. -/
def Dev.queueCmd (d : Dev) (p : Port) (raw : List Byte) (f : Nat → AdminRes) : AdminRes :=
  let q := fldAt raw 0x10 0 16
  if d.owner 0 q = some p.other then notOwner
  else if isAdmin q then detail adFIELD
  else if (d.queue q).state = .free then detail adNOT_FOUND
  else f q

/-- An object has no owner any more. -/
def Dev.disown (d : Dev) (cls idx : Nat) : Dev := { d with owners := Tbl.erase d.owners (ownKey cls idx) }

/-- DELETE_QUEUE. -/
def execDeleteQueue (p : Port) (s : State) := act s (fun d => d.admin p 0x02 (fun raw => d.queueCmd p raw (fun q =>
  if !(d.queue q).entries.isEmpty then detail adBAD_STATE
  else .done 0 ({ d with queues := Tbl.erase d.queues q }.disown 0 q))))

/-- STOP_QUEUE. -/
def execStopQueue (p : Port) (s : State) := act s (fun d => d.admin p 0x03 (fun raw => d.queueCmd p raw (fun q =>
  if (d.queue q).state ≠ .active then detail adBAD_STATE
  else .done 0 (d.updQueue q (fun x => { x with state := .stopped })))))

/-- RESUME_QUEUE. -/
def execResumeQueue (p : Port) (s : State) := act s (fun d => d.admin p 0x04 (fun raw => d.queueCmd p raw (fun q =>
  if (d.queue q).state ≠ .stopped ∧ (d.queue q).state ≠ .parked then detail adBAD_STATE
  else .done 0 (d.updQueue q (fun x => { x with state := .active, deadlocked := false })))))

/-- A count lies below another, mod 2^32. -/
def below (c until_ : Word) : Bool := countAhead c until_

/-- CANCEL: what has been consumed ends now, what has not ends as it is consumed. -/
def Dev.cancel (d : Dev) (q : Nat) (until_ : Word) : Dev :=
  let d := (d.queue q).entries.foldl (fun (d : Dev) (e : Entry) =>
    if e.result = none ∧ below (BitVec.ofNat 32 e.count) until_ then d.stopEntry q e.count { status := stCancelled } else d) d
  d.updQueue q (fun x =>
    let last := if below until_ x.sqTail then until_ else x.sqTail
    if below x.sqCons last then
      match x.cut with
      | some (c, _) => if below c last then { x with cut := some (last, stCancelled) } else x
      | none => { x with cut := some (last, stCancelled) }
    else x)

def execCancel (p : Port) (s : State) := act s (fun d => d.admin p 0x05 (fun raw => d.queueCmd p raw (fun q =>
  .done 0 (d.cancel q (BitVec.ofNat 32 (wordAt raw 0x14))))))

/-! ### Contexts (R104, R105, R290, R291) -/

/-- One variant of a Basket breaks R105; `prev`: the GANG before it. -/
def variantBad (l : List Byte) (i prev len : Nat) (tagged : Bool) : Bool :=
  let o := 0x10 + 16 * i
  let g := byteAt l o
  let off := wordAt l (o + 4)
  let n := wordAt l (o + 8)
  decide (wordAt l o ≠ g ∨ ¬(g = 1 ∨ g = 2 ∨ g = 4 ∨ g = 8) ∨ g ≤ prev ∨ off % 256 ≠ 0 ∨ n % 256 ≠ 0 ∨ n < 256 ∨ 0x4000000 < n ∨
    len < off + n ∨ n < pcOf tagged (wordAt l (o + 12)) + 32)

/-- A Basket breaks R105. -/
def Dev.basketBad (d : Dev) (a len : Nat) : Bool :=
  let l := d.fwBytes a (Nat.min len 80)
  let w4 := wordAt l 4
  let w8 := wordAt l 8
  let nv := bits w8 0 3
  let layers := bits w8 8 16
  let tab := wordAt l 12
  let d0 := d.fwBytes (a + tab) 64
  decide (len < 16 ∨ (d.poisoned a (Nat.min len 80)).isSome = true ∨ wordAt l 0 ≠ 0x4B534142 ∨ bits w4 0 16 ≠ 1 ∨ bits w4 17 15 ≠ 0 ∨
    bits w8 3 5 ≠ 0 ∨ bits w8 24 8 ≠ 0 ∨ nv = 0 ∨ 4 < nv ∨ len < 16 + 16 * nv) ||
  (List.range nv).any (fun i => variantBad l i (if i = 0 then 0 else byteAt l (0x10 + 16 * (i - 1))) len (bit w4 16)) ||
  (decide (layers ≠ 0) &&
    (decide (tab % 64 ≠ 0 ∨ len < tab + 64 * layers ∨ (d.poisoned (a + tab) 64).isSome = true) ||
     strayBits d0 16 [(0, 0, 3), (4, 0, 16), (8, 0, 8), (0xC, 0, 32), (0x10, 0, 32)]))

/-- A binding table breaks R291. -/
def Dev.bindingsBad (d : Dev) (a : Nat) : Bool :=
  (d.firstBad a 128).isSome || (d.poisoned a 128).isSome ||
  (List.range 8).any (fun i =>
    let l := d.fwBytes (a + 16 * i) 16
    decide (4 < wordAt l 0 ∨ 65535 < wordAt l 12))

/-- CREATE_CONTEXT. -/
def execCreateContext (p : Port) (s : State) := act s (fun d => d.admin p 0x10 (fun raw =>
  let c := fldAt raw 0x10 0 10
  let basket := addrAt raw 0x18
  let len := wordAt raw 0x20
  let bind := addrAt raw 0x28
  if d.owner 1 c = some p.other then notOwner
  else if basket % 256 ≠ 0 ∨ bind % 16 ≠ 0 ∨ len = 0 ∨ (d.firstBad basket len).isSome then detail adFIELD
  else if (Tbl.find? d.ctxs c).isSome then detail adIN_USE
  else if d.basketBad basket len then detail adBASKET
  else if d.bindingsBad bind then detail adFIELD
  else
    let x : Ctx := { basket := basket, len := len, bind := bind, affinity := fldAt raw 0x10 16 8 }
    let d := ((d.countRd basket (Nat.min len 80)).countRd (basket + wordAt (d.fwBytes basket 16) 12) 64).countRd bind 128
    .done 0 ({ d with
      ctxs := Tbl.set d.ctxs c x, ctxLevel := Tbl.erase d.ctxLevel c, ctxLast := Tbl.erase d.ctxLast c
      ctxRate := Tbl.erase d.ctxRate c, ctxBurst := Tbl.erase d.ctxBurst c }.setOwner 1 c p)))

/-- An entry naming a context is pending. -/
def Dev.ctxPending (d : Dev) (c : Nat) : Bool :=
  d.queues.any (fun (y : Nat × Queue) => !isAdmin y.1 && y.2.entries.any (fun (e : Entry) => decide (e.op = 1 ∧ e.ctx = c)))

/-- DESTROY_CONTEXT: its phase history goes with it (R359). -/
def execDestroyContext (p : Port) (s : State) := act s (fun d => d.admin p 0x11 (fun raw =>
  let c := fldAt raw 0x10 0 10
  if d.owner 1 c = some p.other then notOwner
  else if (Tbl.find? d.ctxs c).isNone then detail adNOT_FOUND
  else if d.ctxPending c then detail adBAD_STATE
  else .done 0 (({ d with
    ctxs := Tbl.erase d.ctxs c
    pm := { d.pm with hist := d.pm.hist.filter (fun (e : Nat × Nat) => decide (e.1 / 256 ≠ c)) } }).disown 1 c)))

/-! ### GIVE and ADOPT (R288, R312) -/

/-- Indices of a class (Table 10.1). -/
def classLimit (cls : Nat) : Nat := [65536, 1024, 24, 12, 64, 16, 64, 4, 1, 26].getD cls 0

/-- CLASS and INDEX name an object that can change hands. -/
def movable (cls idx : Nat) : Bool := decide (idx < classLimit cls) && !(decide (cls = 0) && isAdmin idx)

/-- GIVE. -/
def execGive (p : Port) (s : State) := act s (fun d => d.admin p 0x18 (fun raw =>
  let idx := fldAt raw 0x10 0 16
  let cls := fldAt raw 0x10 16 4
  if d.owner cls idx = some p.other then notOwner
  else if !movable cls idx then detail adFIELD
  else if d.owner cls idx ≠ some p then detail adNOT_FOUND
  else .done 0 (d.setOwner cls idx p.other)))

/-- A port becomes the owner; a queue takes VECTOR. -/
def Dev.takeOver (d : Dev) (p : Port) (vec cls idx : Nat) : Dev :=
  let d := d.setOwner cls idx p
  if cls = 0 then d.updQueue idx (fun x => { x with vector := vec }) else d

/-- ADOPT: with ALL, every object of the lost port but its admin queue. -/
def execAdopt (p : Port) (s : State) := act s (fun d => d.admin p 0x19 (fun raw =>
  let idx := fldAt raw 0x10 0 16
  let cls := fldAt raw 0x10 16 4
  let vec := fldAt raw 0x14 0 11
  if bit (wordAt raw 0x10) 31 then
    let objs := d.owners.filter (fun (e : Nat × Port) => decide (e.2 = p.other))
    if !d.isLost p.other then detail adPEER
    else if objs.any (fun (e : Nat × Port) => decide (e.1 < 65536)) && decide (vec = 0) then detail adFIELD
    else .done 0 (objs.foldl (fun (d : Dev) (e : Nat × Port) => d.takeOver p vec (e.1 / 65536) (e.1 % 65536)) d)
  else if !movable cls idx || decide (cls = 0 ∧ vec = 0) then detail adFIELD
  else match d.owner cls idx with
    | none => detail adNOT_FOUND
    | some o => if o = p ∨ d.isLost o = false then detail adPEER else .done 0 (d.takeOver p vec cls idx)))

/-! ### PREPARE_OFF (R432) -/

/-- Every camera stream, decode, encode and batch stream and every send ring stops, and the outputs and fabric lanes take
their reset state (step 1). -/
def Dev.stopEngines (d : Dev) : Dev :=
  let d := { d with fw := { d.fw with stopping := true } }
  let d := d.updMed (fun m => { m with str := [], dctx := [], ectx := [], bstr := [] })
  let d := (List.range 16).foldl (fun d r =>
    (d.setFld (Reg.FAB_SRINGr_STATUS r) Fld.FAB_SRINGr_STATUS_STATE 0).updSring r (fun x => { x with descs := [], unacked := [], periods := 0 })) d
  (List.range 4).foldl (fun d p => if d.linkState p = 0 then d else d.takeDown p) d

/-- A staged image and a pending activation are discarded; gangs that were held go on. -/
def Dev.unstage (d : Dev) : Dev :=
  let d := { d with fw := { d.fw with staged := none }, jobs := d.jobs.map (fun (e : Nat × Job) => (e.1, { e.2 with layerHeld := false })) }
  let d := (List.range 8).foldl (fun d i => d.setReg (Reg.FW_STAGED_DIGESTi i) 0) d
  d.setFld Reg.FW_STATUS Fld.FW_STATUS_ACT 0

/-- The general queues that are not FREE. -/
def Dev.liveQueues (d : Dev) : List Nat :=
  (d.queues.filter (fun (e : Nat × Queue) => !isAdmin e.1 && decide (e.2.state ≠ .free))).map (·.1)

/-- Everything of the general queues has been delivered. -/
def Dev.drained (d : Dev) : Bool :=
  d.jobs.isEmpty && d.liveQueues.all (fun q => (d.queue q).entries.isEmpty && decide ((d.queue q).sqCons = (d.queue q).sqTail))

/-- The copy that holds the user layer in force, or that was written last. -/
def Keep.inForce1 (k : Keep) (l : Option CalLayer) : Bool :=
  match l with
  | some x => decide (k.cal1 = .layer x)
  | none => false

/-- Write a user layer into the copy that is not in force. -/
def Dev.writeLayer (d : Dev) (l : CalLayer) : Dev :=
  if d.keep.inForce1 d.fw.layer then { d with keep := { d.keep with cal0 := .layer l } }
  else match d.fw.layer with
    | some _ => { d with keep := { d.keep with cal1 := .layer l } }
    | none => { d with keep := { d.keep with cal0 := .layer l } }

/-- The bytes of a layer (Table 15.6). -/
def CalLayer.bytes (l : CalLayer) : List Byte :=
  leBytes 4 0x4C414355 ++ leBytes 4 l.seq ++ leBytes 4 (256 + l.tables.length) ++ leBytes 20 0 ++ leBytes 32 l.digest.toNat ++
  (List.range 9).map (fun i => BitVec.ofInt 8 (l.trims.getD i 0)) ++ leBytes 7 0 ++ leBytes 4 l.k ++ leBytes 4 l.tables.length ++
  leBytes 168 0 ++ l.tables

/-- A layer with its DIGEST: the SHA3-256 of the layer with DIGEST taken as zero (R422). -/
def CalLayer.sealed (l : CalLayer) : CalLayer := { l with digest := sha3 ({ l with digest := 0 } : CalLayer).bytes }

/-- The flash answered at start. -/
def Dev.hasFlash (d : Dev) : Bool := decide (d.fld Reg.STC_START_STATUS Fld.STC_START_STATUS_REC_CODE ≠ 1)

/-- K goes into a new copy of the user layer, where the flash takes the write (R423). -/
def Dev.storeK (d : Dev) (flashOk : Bool) : Dev :=
  if !flashOk || !d.hasFlash then d
  else
  let l := d.fw.layer.getD { seq := 0, trims := List.replicate 9 0, k := 0, tables := [], digest := 0 }
  d.writeLayer ({ l with seq := l.seq + 1, k := d.corrK } : CalLayer).sealed

/-- PREPARE_OFF: the first execution stops the engines and the jobs, and the last one, when everything is delivered, stores K
and completes. DEDUCED: a write of K that the flash does not take (`flashOk`) leaves the user layer as it is, and the stop goes
on; R423 and R432 name no such case. -/
def execPrepareOff (p : Port) (flashOk : Bool) (s : State) := act s (fun d => d.adminSem p 0x30 (fun _ =>
  let d := if d.fw.stopping then d else d.stopEngines
  let d := (d.setFld Reg.STC_STOP_STATUS Fld.STC_STOP_STATUS_STOP_STEP 1).unstage
  let d := d.liveQueues.foldl (fun (d : Dev) (q : Nat) => d.drainQueue q stCancelled) d
  if !d.drained then .busy d
  else let d := d.storeK flashOk
    .done 0 { d with fw := { d.fw with stopped := true } }))

end Sys2Proof.Machine
end

