-- ==== Sys2Proof/Machine/Firmware.lean ====
section
/-! DEFINITION. Firmware and trust: signed images, loading, restarts, live update, attestation, calibration layers and debug
access (R342, R410 to R425). -/

namespace Sys2Proof.Machine

def Dev.updFw (d : Dev) (f : Fw → Fw) : Dev := { d with fw := f d.fw }

/-! ### Signed images (R410 to R412) -/

/-- Codes of Table 15.3. -/
def imOK : Nat := 1
def imFORMAT : Nat := 2
def imKEY : Nat := 3
def imDIGEST : Nat := 4
def imSIGNATURE : Nat := 5
def imROLLBACK : Nat := 6
def imABI : Nat := 7
def imABORTED : Nat := 8

/-- The anti-rollback counter: the set fuses among 64 (R412). -/
def Dev.otpSvn (d : Dev) : Nat := Nat.min 64 (Config.otpSvn + d.keep.fuses)

/-- Version and digest of the pattern pack in use (R342). -/
def Dev.packVersion (d : Dev) : Nat := d.fw.packVersion.getD (Config.flaskPackVersion d.fw.image.digest).toNat
def Dev.packDigest (d : Dev) : BitVec 256 := if d.fw.packVersion.isSome then d.fw.packDigest else Config.flaskPackDigest d.fw.image.digest

/-- 32 bytes as a number. -/
def bv256 (l : List Byte) : BitVec 256 := BitVec.ofNat 256 (leNat l)

/-- The header of a signed image (Table 15.2). -/
structure ImgHeader where
  kind : Nat
  slot : Nat
  roll : Bool
  version : Nat
  svn : Nat
  abi : Nat
  bodyLen : Nat
  bodyDigest : BitVec 256
  /-- MAGIC is wrong or a reserved field is not 0. -/
  malformed : Bool
  deriving DecidableEq, Repr

def imgHeader (l : List Byte) : ImgHeader :=
  { kind := byteAt l 4, slot := fldAt l 4 8 2, roll := bit (wordAt l 4) 10, version := wordAt l 8, svn := fldAt l 0xC 0 7
    abi := fldAt l 0xC 8 16, bodyLen := wordAt l 0x10, bodyDigest := bv256 ((l.drop 0x20).take 32)
    malformed := decide (wordAt l 0 ≠ 0x51464C4B ∨ fldAt l 4 11 21 ≠ 0 ∨ fldAt l 0xC 7 1 ≠ 0 ∨ fldAt l 0xC 24 8 ≠ 0) ||
      ((l.drop 0x14).take 12).any (fun (b : Byte) => decide (b ≠ 0)) || (l.drop 0xED4).any (fun (b : Byte) => decide (b ≠ 0)) }

/-- The image digest D of a header (R410). -/
def imgDigest (l : List Byte) : BitVec 256 := sha3 (l.take 0x560)

/-- PUBKEY and SIG of a header. -/
def imgKey (l : List Byte) : List Byte := (l.drop 0x40).take 1312
def imgSig (l : List Byte) : List Byte := (l.drop 0x560).take 2420

/-- The checks of R411 on an image of `kind`, total length `len`, with the header's bytes and the body's: the first that fails, or
OK. -/
def Dev.imageCode (d : Dev) (kind len : Nat) (l body : List Byte) : Nat :=
  let h := imgHeader l
  if h.malformed ∨ h.kind ≠ kind ∨ h.bodyLen = 0 ∨ 4190208 < h.bodyLen ∨ len ≠ 4096 + h.bodyLen then imFORMAT
  else if Config.slotRevoked h.slot = true ∨ bit (Config.slotUse h.slot).toNat (kind - 1) = false ∨ sha3 (imgKey l) ≠ Config.slotDigest h.slot then imKEY
  else if sha3 body ≠ h.bodyDigest then imDIGEST
  else if Config.mldsaVerify (imgKey l) (leBytes 32 (imgDigest l).toNat) (imgSig l) = false then imSIGNATURE
  else if (kind = 1 ∧ h.svn < d.otpSvn) ∨ (kind = 2 ∧ h.version < d.packVersion) then imROLLBACK
  else imOK

/-- The image of a header. -/
def imgOf (l : List Byte) : Image :=
  let h := imgHeader l
  { version := BitVec.ofNat 32 h.version, svn := h.svn, abi := h.abi, roll := h.roll, digest := imgDigest l }

/-- A copy of an image goes into the LPDDR6 reserve, at a place that the spec does not give: the bytes written are counted. -/
def Dev.keepImage (d : Dev) (len : Nat) : Dev := d.add64 Reg.MC_WR_BYTES_LO Reg.MC_WR_BYTES_HI (32 * ceilDiv len 32)

/-- The image that begins to run: its registers change at one edge, and fuses are set, at most the 64 there are, where VPP_OTP is
at 1.8 V (R412). -/
def Dev.beginImage (d : Dev) (i : Image) (vpp : Bool) : Dev :=
  let d := d.updFw (fun f => { f with image := i })
  let d := (d.setReg Reg.FW_VERSION i.version).setFld Reg.FW_SVN Fld.FW_SVN_SVN i.svn
  let d := (List.range 8).foldl (fun d k => d.setReg (Reg.FW_DIGESTi k) ((i.digest >>> (32 * k)).setWidth 32)) d
  if i.roll && decide (d.otpSvn < Nat.min 64 i.svn) then
    (if vpp then { d with keep := { d.keep with fuses := d.keep.fuses + (Nat.min 64 i.svn - d.otpSvn) } }
     else d.raise Reg.FW_STATUS Fld.FW_STATUS_OTP_SKIPPED)
  else d

/-! ### Loading (R413) -/

def loadArea : Nat := hamperBase + 0x3800000

def Dev.fwState (d : Dev) : Nat := d.fld Reg.FW_STATUS Fld.FW_STATUS_STATE
def Dev.setFwState (d : Dev) (x : Nat) : Dev := d.setFld Reg.FW_STATUS Fld.FW_STATUS_STATE x

/-- The boot has failed (R431). -/
def Dev.bootFailed (d : Dev) : Bool := decide (d.fld Reg.STC_START_STATUS Fld.STC_START_STATUS_PHASE = 3)

/-- FW_LOAD: a write of FW_LOAD by a port. -/
def execFwLoad (p : Port) (v : Word) (s : State) := act s (fun d =>
  if !d.holdsSem0 p || decide (d.fwState ≠ 0) then d.raise Reg.FW_EVENT Fld.FW_EVENT_WR_REJECT
  else if Fld.FW_LOAD_GO.get v = 0 ∨ d.fw.booted = false ∨ d.bootFailed then d
  else (d.updFw (fun f => { f with loading := some (Fld.FW_LOAD_LENGTH.get v) })).setFwState 1)

/-- FW_VERIFY_DONE; `vpp`: VPP_OTP is at 1.8 V. -/
def execFwVerifyDone (ph : Phys) (vpp : Bool) (s : State) := act s (fun d =>
  match d.fw.loading with
  | none => d
  | some len =>
    let d := d.meet ph
    let l := d.fwBytes loadArea 4096
    let h := imgHeader l
    let code := d.imageCode 1 len l (d.fwBytes (loadArea + 4096) (len - 4096))
    let d := (d.updFw (fun f => { f with loading := none })).setReg Reg.FW_LOAD_RESULT (BitVec.ofNat 32 code)
    if code ≠ imOK then d.setFwState 0
    else
      let d := (d.setReg (Reg.HPx_FW_ABI 0) (BitVec.ofNat 32 h.abi)).setReg (Reg.HPx_FW_ABI 1) (BitVec.ofNat 32 h.abi)
      ((d.keepImage len).beginImage (imgOf l) vpp).setFwState 2)

/-! ### Restarts (R414, R415) -/

/-- Seconds in TCLK edges: TCLK runs at 100 MHz. -/
def secTicks : Nat := 100000000

/-- FAILED is entered. -/
def Dev.failFw (d : Dev) : Dev :=
  ((d.setFwState 5).raise Reg.FW_EVENT Fld.FW_EVENT_FAILED).setFld Reg.STC_ALIVE Fld.STC_ALIVE_EN 0

/-- The firmware restarts; `same`: D of the copy in the LPDDR6 reserve equals the D verified at load. -/
def Dev.restartFw (d : Dev) (cause core : Nat) (same : Bool) : Dev :=
  if d.fwState < 2 ∨ d.fwState = 5 then d
  else
    let lost := d.fw.staged.isSome || decide (d.fld Reg.FW_STATUS Fld.FW_STATUS_ACT ≠ 0)
    let d := d.unstage
    let d := if lost then d.raise Reg.FW_EVENT Fld.FW_EVENT_STAGE_LOST else d
    let d := d.setFld Reg.STC_ALIVE Fld.STC_ALIVE_EN 0
    let d := (d.addReg Reg.FW_RESTARTS 1).raise Reg.FW_EVENT Fld.FW_EVENT_RESTARTED
    let d := d.setReg Reg.FW_LAST_RESTART (BitVec.ofNat 32 ((if same then cause else 3) + core * 4))
    let recent := d.fw.restarts.filter (fun (t : Nat) => decide (d.ticks < t + 60 * secTicks))
    let d := d.updFw (fun f => { f with restarts := d.ticks :: recent })
    if !same || decide (2 ≤ recent.length) then d.failFw else d.setFwState 4

/-- FW_WATCHDOG of a control core. -/
def execFwWatchdog (core : Fin 6) (same : Bool) (s : State) := act s (fun d => d.restartFw 1 core same)

/-- QM_CHECK. -/
def execQmCheck (same : Bool) (s : State) := act s (fun d => d.restartFw 2 0 same)

/-! ### Live update (R416 to R418) -/

def Dev.fwAct (d : Dev) : Nat := d.fld Reg.FW_STATUS Fld.FW_STATUS_ACT
def Dev.setAct (d : Dev) (x : Nat) : Dev := d.setFld Reg.FW_STATUS Fld.FW_STATUS_ACT x
def Dev.actResult (d : Dev) (x : Nat) : Dev := d.setReg Reg.FW_ACT_RESULT (BitVec.ofNat 32 x)

/-- An address and length that a signed image may have: usable memory outside the register space. -/
def Dev.imageAt (d : Dev) (a len align : Nat) : Bool :=
  decide (a % align = 0) && !isCoreMem a && (d.firstBad a len).isNone

/-- FW_STAGE. -/
def execFwStage (p : Port) (ph : Phys) (s : State) := act s (fun d => d.adminSem p 0x32 (fun raw =>
  let a := addrAt raw 0x10
  let len := wordAt raw 0x18
  if 2 ≤ d.fwAct then detail adBAD_STATE
  else if !d.imageAt a len 4096 then detail adFIELD
  else
    let d := d.meet ph
    let l := d.fwBytes a 4096
    let code := if len < 4097 then imFORMAT else d.imageCode 1 len l (d.fwBytes (a + 4096) (len - 4096))
    let d := d.countRd a len
    let code := if code = imOK ∧ (imgHeader l).abi ≠ d.fw.image.abi then imABI else code
    if code ≠ imOK then .ended { status := stBadEntry, aux := BitVec.ofNat 32 adFIELD } (d.actResult code)
    else
      let d := ((d.keepImage len).updFw (fun f => { f with staged := some (imgOf l) })).setAct 1
      let d := (List.range 8).foldl (fun d k => d.setReg (Reg.FW_STAGED_DIGESTi k) ((imgDigest l >>> (32 * k)).setWidth 32)) d
      .done 0 (d.actResult imOK)))

/-- EMERGENCY and thermal level 2 are both clear, and have been for 1 s (R417). -/
def Dev.calm (d : Dev) : Bool := !d.pm.emergency && !d.pm.l2
def Dev.calmLong (d : Dev) : Bool := d.calm && decide (d.fw.clearAt.getD 0 + secTicks ≤ d.ticks)

/-- FW_ACTIVATE. -/
def execFwActivate (p : Port) (s : State) := act s (fun d => d.adminSem p 0x33 (fun _ =>
  if d.fwAct ≠ 1 then detail adBAD_STATE
  else if d.calmLong then .done 0 (d.setAct 3) else .done 1 (d.setAct 2)))

/-- HANDOVER_BEGIN: both conditions have been clear for 1 s. -/
def execHandoverBegin (s : State) := act s (fun d => if d.fwAct = 2 ∧ d.calmLong then d.setAct 3 else d)

/-- The gangs that a handover held go on. -/
def Dev.releaseGangs (d : Dev) : Dev := { d with jobs := d.jobs.map (fun (e : Nat × Job) => (e.1, { e.2 with layerHeld := false })) }

/-- Every gang is held; a gang in a debug halt counts as held. -/
def Dev.allHeld (d : Dev) : Bool := d.jobs.all (fun (e : Nat × Job) => e.2.layerHeld || decide (e.2.state = .debugHalt))

/-- HANDOVER_SWITCH. -/
def execHandoverSwitch (vpp : Bool) (s : State) := act s (fun d =>
  match d.fw.staged with
  | some i =>
    if d.fwAct = 3 ∧ d.allHeld then
      let d := (d.unstage.releaseGangs.beginImage i vpp).actResult imOK
      d.raise Reg.FW_EVENT Fld.FW_EVENT_ACTIVATED
    else d
  | none => d)

/-- ACT_ABORTED: 100 ms have passed and some gang is not held. -/
def execActAborted (s : State) := act s (fun d =>
  if d.fwAct = 3 ∧ d.allHeld = false then ((d.releaseGangs.setAct 1).actResult imABORTED).raise Reg.FW_EVENT Fld.FW_EVENT_ACT_ABORTED else d)

/-- FW_CANCEL. -/
def execFwCancel (p : Port) (s : State) := act s (fun d => d.adminSem p 0x34 (fun _ =>
  if d.fwAct = 3 then detail adBAD_STATE else .done 0 d.unstage))

/-- LOAD_PATTERN_PACK (R342). -/
def execLoadPatternPack (p : Port) (ph : Phys) (s : State) := act s (fun d => d.adminSem p 0x37 (fun raw =>
  let a := addrAt raw 0x10
  let len := wordAt raw 0x18
  let d := d.meet ph
  let l := d.fwBytes a 4096
  if a % 256 ≠ 0 ∨ len < 4097 ∨ (d.firstBad a len).isSome then detail adFIELD
  else if d.imageCode 2 len l (d.fwBytes (a + 4096) (len - 4096)) ≠ imOK then
    .ended { status := stBadEntry, aux := BitVec.ofNat 32 adFIELD } d
  else .done 0 ((d.countRd a len).updFw (fun f => { f with
    packVersion := some (imgHeader l).version, packDigest := imgDigest l }))))

/-! ### The health record in force (R430, R435 to R437) -/

/-- A record permits a quick start (R430). -/
def HRec.valid (r : HRec) : Bool := decide (r.defect = 0) && r.clean && decide (r.starts < 8 ∧ r.age < 2592000)

/-- Seconds since the start. -/
def Dev.powered (d : Dev) : Nat := d.ticks / secTicks

/-- State and REMAIN of every unit as a record holds them. -/
def Dev.unitStates (d : Dev) : List (Nat × Nat) := (List.range 48).map (fun u => (healthCode (d.unitSt u), (d.unit u).remain))

/-- AGE_S now. -/
def Dev.recAge (d : Dev) : Nat := d.fw.ageBase + d.powered

/-- A new record goes to the copy not in force, its SEQ one higher. -/
def Dev.writeRec (d : Dev) (r : HRec) : Dev :=
  if !d.hasFlash then d
  else
    let i := match d.fw.rec_ with
      | some (k, _) => 1 - k
      | none => 0
    let seq := match d.fw.rec_ with
      | some (_, o) => (o.seq + 1) % pow2 32
      | none => 1
    let r := { r with defect := 0, seq := seq }
    ({ d with keep := { d.keep with recs := Tbl.set d.keep.recs i r } }).updFw (fun f => { f with rec_ := some (i, r) })

/-- The record of a fence change or of the 24-hour update. -/
def Dev.updateRec (d : Dev) : Dev :=
  let old := d.fw.rec_.map (·.2)
  d.writeRec
    { clean := (old.map (fun (r : HRec) => r.clean)).getD false, seq := 0, starts := (old.map (fun (r : HRec) => r.starts)).getD 0, age := d.recAge
      lbist := (old.map (fun (r : HRec) => r.lbist)).getD 0, mbist := (old.map (fun (r : HRec) => r.mbist)).getD 0
      hamper := (old.map (fun (r : HRec) => r.hamper)).getD false, units := d.unitStates }

/-- The record that firmware writes before it accepts ATTACH. -/
def Dev.startRec (d : Dev) : Dev :=
  if d.fld Reg.FW_STATUS Fld.FW_STATUS_QUICK_START = 1 then
    match d.fw.rec_ with
    | some (_, r) => d.writeRec { r with starts := r.starts + 1 }
    | none => d
  else
    d.writeRec { clean := false, seq := 0, starts := 0, age := 0
                 lbist := BitVec.ofNat 8 (d.fld Reg.STC_BIST_FAIL Fld.STC_BIST_FAIL_LBIST)
                 mbist := BitVec.ofNat 8 (d.fld Reg.STC_BIST_FAIL Fld.STC_BIST_FAIL_MBIST)
                 hamper := decide (d.fld Reg.STC_BIST_FAIL Fld.STC_BIST_FAIL_HAMPER = 1), units := d.unitStates }

/-- The health record has caught up with the fences (R324): not without a flash to write. -/
def Dev.recordClean (d : Dev) : Dev := if d.hasFlash then d.setFld Reg.STC_HEALTH_SUM Fld.STC_HEALTH_SUM_RECORD_DIRTY 0 else d

/-! ### Attestation (R419, R420) -/

/-- `n` bytes from a list, zeros beyond its end. -/
def padTo (n : Nat) (l : List Byte) : List Byte := (l ++ List.replicate n 0).take n

/-- The offsets of a row's registers. -/
def RegRow.offsets (r : RegRow) : List Nat :=
  (List.range r.count).foldr (fun (i : Nat) (acc : List Nat) =>
    (List.range r.count2).map (fun (j : Nat) => r.off + r.step * i + r.step2 * j) ++ acc) []

/-- The offsets of the RWS registers, in ascending order. -/
def rwsOffsets : List Nat :=
  ((regTable.filter (fun (r : RegRow) => r.has .rws)).foldr (fun (r : RegRow) (acc : List Nat) => r.offsets ++ acc) []).mergeSort

/-- CONFIG_DIGEST of R420: an offset and a value of four little-endian bytes each. -/
def Dev.configDigest (d : Dev) : BitVec 256 :=
  sha3 (rwsOffsets.foldr (fun (o : Nat) (acc : List Byte) => leBytes 4 o ++ leBytes 4 (d.reg o).toNat ++ acc) [])

/-- The part of the report of Table 15.5 that SIG signs: bytes 0x000 to 0x61F. -/
def Dev.attestSigned (d : Dev) (nonce key : List Byte) : List Byte :=
  let st := d.reg Reg.FW_STATUS
  let dbg := d.fld Reg.SEC_STATUS Fld.SEC_STATUS_DEBUG_ENABLED
  let rec_ := d.fw.rec_.map (·.2)
  let w4 := 1 + Fld.FW_STATUS_QUICK_START.get st * pow2 16 + b2n (rec_.any (fun (r : HRec) => r.valid)) * pow2 17 +
    Fld.FW_STATUS_OTP_SKIPPED.get st * pow2 18 + b2n d.fw.layer.isSome * pow2 19 + dbg * pow2 20
  let starts := (rec_.map (fun (r : HRec) => r.starts)).getD (pow2 32 - 1)
  let age := (rec_.map (fun (_ : HRec) => d.recAge)).getD (pow2 32 - 1)
  let fence := (List.range 48).foldl (fun acc u => acc + healthCode (d.unitSt u) * pow2 (2 * u)) 0
  leBytes 4 0x51545441 ++ leBytes 4 w4 ++ leBytes 8 Config.uid.toNat ++ leBytes 8 d.time.toNat ++ leBytes 4 starts ++ leBytes 4 age ++
  leBytes 4 Config.romVersion.toNat ++ leBytes 4 d.fw.image.version.toNat ++ leBytes 4 (d.fw.image.svn + d.otpSvn * 256) ++ leBytes 4 0 ++
  leBytes 32 d.fw.image.digest.toNat ++ leBytes 32 d.packDigest.toNat ++ leBytes 32 d.configDigest.toNat ++
  leBytes 32 ((d.fw.layer.map (fun (l : CalLayer) => l.digest)).getD 0).toNat ++ padTo 32 nonce ++ leBytes 12 fence ++ leBytes 36 0 ++
  padTo 1312 key

/-- The report of Table 15.5, signed with the key pair that the security block holds; `rnd`: the random input of the
signature. -/
def Dev.attestReport (d : Dev) (nonce : List Byte) (rnd : BitVec 256) : List Byte :=
  let seed := d.fw.key.getD 0
  let l := d.attestSigned nonce (Config.mldsaPublic seed)
  l ++ padTo 2420 (Config.mldsaSign seed (leBytes 32 (sha3 l).toNat) rnd) ++ leBytes 108 0

/-- The signing key has been zeroised and no debug session key has taken its place (R419, R420). -/
def Dev.keyGone (d : Dev) : Bool := d.fw.key.isNone

/-- ATTEST. -/
def execAttest (p : Port) (bad : List Nat) (corr : List (Nat × Nat × Nat)) (rnd : BitVec 256) (s : State) := act s (fun d => d.admin p 0x36 (fun raw =>
  let a := addrAt raw 0x30
  if d.keyGone then detail adBAD_STATE
  else if a % 4096 ≠ 0 ∨ (d.firstBad a 4096).isSome then detail adFIELD
  else
    let d := d.meet { bad := bad, corr := corr }
    .done 0 (d.storeNow a (d.attestReport ((raw.drop 0x10).take 32) rnd))))

/-! ### Calibration layers (R422, R423) -/

def calStatus (d : Dev) (p : Port) (x : Nat) : Dev := d.setRegP p Reg.FW_CAL_STATUS (BitVec.ofNat 32 x)

/-- The address that a port names. -/
def Dev.calAddr (d : Dev) (p : Port) : Nat :=
  (d.regP p Reg.FW_CAL_ADDR_LO).toNat + Fld.FW_CAL_ADDR_HI_ADDR.get (d.regP p Reg.FW_CAL_ADDR_HI) * pow2 32

/-- The trims of a layer image. -/
def layerTrims (l : List Byte) : List Int := (List.range 9).map (fun i => sgn 8 (byteAt l (0x40 + i)))

/-- The form of a layer image (Table 15.6). -/
def layerMalformed (l : List Byte) : Bool :=
  let t := wordAt l 0x54
  let k := fldAt l 0x50 0 16
  decide (wordAt l 0 ≠ 0x4C414355 ∨ 4194048 < t ∨ wordAt l 8 ≠ 256 + t ∨ fldAt l 0x50 16 16 ≠ 0 ∨ ¬(k = 0 ∨ (3277 ≤ k ∧ k ≤ 5120))) ||
  ((l.drop 0xC).take 20 ++ (l.drop 0x49).take 7 ++ (l.drop 0x58).take 168).any (fun (b : Byte) => decide (b ≠ 0))

/-- The SHA3-256 of a layer's bytes with its DIGEST taken as zero (Table 15.6). -/
def layerSum (l : List Byte) : BitVec 256 := sha3 (l.take 0x20 ++ List.replicate 32 0 ++ l.drop 0x40)

/-- STORE is executed; `flashOk`: the flash takes the write. -/
def Dev.calStore (d : Dev) (p : Port) (flashOk : Bool) : Dev :=
  let a := d.calAddr p
  let l := d.fwBytes a 256
  let t := wordAt l 0x54
  if !d.holdsSem0 p then calStatus d p 6
  else if a % 64 ≠ 0 ∨ (d.firstBad a 256).isSome ∨ layerMalformed l ∨ (d.firstBad a (256 + t)).isSome then calStatus d p 2
  else
    let d := d.countRd a (256 + t)
    if bv256 ((l.drop 0x20).take 32) ≠ layerSum (l ++ d.fwBytes (a + 256) t) then calStatus d p 3
    else if (List.range 9).any (fun i => decide ((Config.margin i : Int) < ((layerTrims l).getD i 0).natAbs)) then calStatus d p 4
    else if !flashOk || !d.hasFlash then calStatus d p 5
    else
      let seq := (d.fw.layer.map (fun (x : CalLayer) => x.seq)).getD 0 + 1
      let x : CalLayer :=
        { seq := seq, trims := layerTrims l, k := fldAt l 0x50 0 16, tables := d.fwBytes (a + 256) t, digest := 0 }
      calStatus ((d.writeLayer x.sealed).updFw (fun f => { f with calPending := some (some x.sealed) })) p 1

/-- READ is executed: the layer in force. -/
def Dev.calRead (d : Dev) (p : Port) : Dev :=
  match d.fw.layer with
  | none => calStatus d p 7
  | some l =>
    let a := d.calAddr p
    if a % 64 ≠ 0 ∨ (d.firstBad a l.bytes.length).isSome then calStatus d p 2
    else calStatus (d.storeNow a l.bytes) p 1

/-- A calibration command is executed: STORE with whether the flash takes the write, or READ. -/
def Dev.calRun (d : Dev) (c : Port × Option Bool) : Dev :=
  match c.2 with
  | some ok => d.calStore c.1 ok
  | none => d.calRead c.1

/-- A calibration command: firmware executes it, or after a restart in progress (Table 15.1). DEDUCED: it reads BUSY until
then. -/
def Dev.calCommand (d : Dev) (c : Port × Option Bool) : Dev :=
  if !d.awake then d
  else if d.fwRunning then d.calRun c
  else if d.fwState = 4 then calStatus (d.updFw (fun f => { f with calWait := f.calWait ++ [c] })) c.1 8
  else d

/-- STORE; `flashOk`: the flash takes the write. -/
def execStore (p : Port) (bad : List Nat) (corr : List (Nat × Nat × Nat)) (flashOk : Bool) (s : State) := act s (fun d =>
  (d.meet { bad := bad, corr := corr }).calCommand (p, some flashOk))

/-- READ. -/
def execRead (p : Port) (s : State) := act s (fun d => d.calCommand (p, none))

/-- FIRMWARE_READY: after a load, or after a restart, which ends with the commands that waited for it. -/
def execFirmwareReady (s : State) := act s (fun d =>
  if d.fwState = 2 ∨ d.fwState = 4 then
    let d := if d.fwState = 2 then d.startRec.recordClean else d
    let d := (d.setFwState 3).raise Reg.STC_ALIVE Fld.STC_ALIVE_EN
    d.fw.calWait.foldl Dev.calRun (d.updFw (fun f => { f with calWait := [] }))
  else d)

/-- RESTORE_FACTORY. -/
def execRestoreFactory (p : Port) (s : State) := act s (fun d => d.adminSem p 0x35 (fun _ =>
  .done 0 ({ d with keep := { d.keep with cal0 := .absent, cal1 := .absent } }.updFw (fun f => { f with calPending := some none }))))

/-- A pending layer takes effect with a commit. -/
def Dev.layerCommit (d : Dev) : Dev :=
  match d.fw.calPending with
  | some l => d.updFw (fun f => { f with layer := l, calPending := none })
  | none => d

/-! ### Debug access (R421, R425) -/

/-- A debug command comes from the JTAG register that mirrors the SEC_DBG registers, or from a port that holds SEM0. -/
def Dev.mayDebug (d : Dev) (src : Option Port) : Bool :=
  match src with
  | some p => d.holdsSem0 p
  | none => true

def Dev.dbgCode (d : Dev) (x : Nat) : Dev := d.setReg Reg.SEC_DBG_STATUS (BitVec.ofNat 32 x)

/-- CHALLENGE: 32 bytes from the random number generator. -/
def execChallenge (src : Option Port) (s : State) := act s (fun d =>
  if !d.mayDebug src then d
  else
    let d := (List.range 8).foldl (fun d i => d.setReg (Reg.SEC_DBG_CHALi i) (Config.freeWord d.ctr (100 + i))) d
    (d.updFw (fun f => { f with chalLive := true })).dbgCode 1)

/-- The public key of a response is that of an unrevoked slot with usage DEBUG. -/
def debugKeyOk (slot : Nat) (pub : BitVec 256) : Bool :=
  !Config.slotRevoked slot && bit (Config.slotUse slot).toNat 2 && decide (pub = Config.slotDigest slot)

/-- The response at SEC_DBG_RESP: the public key and the signature. -/
def Dev.debugResponse (d : Dev) : List Byte × List Byte :=
  let a := (d.reg Reg.SEC_DBG_RESP_LO).toNat + Fld.SEC_DBG_RESP_HI_ADDR.get (d.reg Reg.SEC_DBG_RESP_HI) * pow2 32
  let l := d.fwBytes a 3732
  (l.take 1312, l.drop 1312)

/-- The message that a response signs: the challenge and GLB_UID. -/
def Dev.debugMessage (d : Dev) : List Byte :=
  (List.range 8).foldr (fun (i : Nat) (acc : List Byte) => leBytes 4 (d.reg (Reg.SEC_DBG_CHALi i)).toNat ++ acc) (leBytes 8 Config.uid.toNat)

/-- VERIFY of the response at SEC_DBG_RESP; `seed`: what the random number generator gives for a session's key pair (R420). -/
def execVerify (src : Option Port) (slot : Fin 4) (ph : Phys) (seed : BitVec 256) (s : State) := act s (fun d =>
  if !d.mayDebug src then d
  else if !d.fw.chalLive then d.dbgCode 5
  else
    let d := d.updFw (fun f => { f with chalLive := false })
    let d := d.meet ph
    let r := d.debugResponse
    if !debugKeyOk slot (sha3 r.1) then d.dbgCode 3
    else if !Config.mldsaVerify r.1 d.debugMessage r.2 then d.dbgCode 4
    else
      let d := d.updFw (fun f => { f with key := some seed })
      ((d.raise Reg.SEC_STATUS Fld.SEC_STATUS_ZEROISED).raise Reg.SEC_STATUS Fld.SEC_STATUS_DEBUG_ENABLED).dbgCode 2)

/-- CHALLENGE_EXPIRED. -/
def execChallengeExpired (s : State) := act s (fun d =>
  if d.fw.chalLive then (d.updFw (fun f => { f with chalLive := false })).dbgCode 5 else d)

/-- RNG_READ: 32 random bits. -/
def execRngRead (p : Port) (s : State) := act s (fun d => { d with out := .regData p (Config.freeWord d.ctr 99) :: d.out })

end Sys2Proof.Machine
end

