-- ==== Sys2Proof/Machine/Health.lean ====
section
/-! DEFINITION. Health states, field and confirmation tests and the records of R323, R324, R333, R340, R341 and R435. -/

namespace Sys2Proof.Machine

/-! ### Tests (R340, R341) -/

/-- A core is idle: no job runs on it, and it hosts none. -/
def Dev.coreIdle (d : Dev) (n : Nat) : Bool := (d.core n).gang.isNone && !d.hosting n

/-- The cap leaves room for the estimated power of a test of unit u (R340). -/
def Dev.testRoom (d : Dev) (u : Nat) : Bool :=
  decide (d.pm.pF + ((Config.testPower u d.pm.step).toNat * 16 : Nat) ≤ (d.pm.capF : Int))

/-- Firmware can run a test on unit u: it is running, the core is idle and not fenced there, and the power manager has room. -/
def Dev.mayTest (d : Dev) (u : Nat) : Bool :=
  d.testRoom u && d.fwRunning && d.awake && !d.fw.stopping && d.coreIdle (u / 6) && decide (d.unitSt u ≠ .fenced)

/-- Mean ACLK in MHz at a step (Table 1.3); which way half a MHz is rounded is free. -/
def Dev.stepMhz (d : Dev) (s : Nat) : Nat :=
  1800 * (16 - s) / 16 + b2n (decide (1800 * (16 - s) % 16 ≠ 0) && Config.freeBit d.ctr 12)

/-- The result of a test of unit u at junction temperature `temp` in 1/8 °C; `kind`: 6 a field test, 7 a confirmation test. -/
def Dev.testDone (d : Dev) (u kind : Nat) (r : TestEnd) (temp : Int) : Dev :=
  let s := d.pm.step
  let mv := d.vset s - 25
  let mhz := d.stepMhz (s - 1)
  let res := match r with
    | .pass => 1
    | .fail _ => 2
    | .aborted => 3
  let d := d.updUnit u (fun h => { h with
    test := { result := res, full := decide (s ≠ 0), at_ := some d.ticks, mv := mv, mhz := mhz, temp := unsgn 16 temp }
    confirm := if kind = 7 ∧ r ≠ .aborted then false else h.confirm })
  match r with
  | .aborted => d
  | .pass => d.addReg Reg.STC_FTEST_RUNS 1
  | .fail pattern =>
    ((d.addReg Reg.STC_FTEST_RUNS 1).addReg Reg.STC_FTEST_FAILS 1).unitEvent u
      { kind := kind, unit := u, d0 := mv % pow2 16 + mhz * pow2 16, d1 := unsgn 16 temp, d2 := pattern }

/-- CONFIRMATION_TEST of unit u. -/
def execConfirmationTest (u : Fin 48) (r : TestEnd) (temp : Int) (s : State) := act s (fun d =>
  if d.mayTest u && (d.unit u).confirm then d.testDone u 7 r temp else d)

/-- FIELD_TEST of unit u. -/
def execFieldTest (u : Fin 48) (r : TestEnd) (temp : Int) (s : State) := act s (fun d =>
  if d.mayTest u && decide (d.fld Reg.STC_FTEST_CTRL Fld.STC_FTEST_CTRL_EN = 1) then d.testDone u 6 r temp else d)

/-- FIELD_OVERDUE: unit u has gone 24 hours untested. -/
def execFieldOverdue (u : Fin 48) (s : State) := act s (fun d =>
  if d.unitSt u = .healthy then d.raise Reg.STC_HEALTH_SUM Fld.STC_HEALTH_SUM_FIELD_OVERDUE else d)

/-! ### Transitions without an event of Table 11.1 (R323, R333, R344) -/

/-- A change of state with its KIND 8 record. -/
def Dev.changeState (d : Dev) (u : Nat) (f : HUnit → HUnit) : Dev :=
  let was := healthCode (d.unitSt u)
  (d.updUnit u f).logFault { kind := 8, unit := u, d2 := was }

/-- OBSERVED_TIMEOUT of unit u: 72 hours of powered time with no event. -/
def execObservedTimeout (u : Fin 48) (s : State) := act s (fun d =>
  if d.unitSt u = .observed then d.changeState u (fun h => { h with st := .healthy, remain := 0, confirm := false }) else d)

/-- No job runs on a gang that contains the core (R333). -/
def Dev.coreFree (d : Dev) (n : Nat) : Bool := (d.core n).gang.isNone

/-- A FENCED unit becomes OBSERVED. -/
def Dev.unfenceNow (d : Dev) (u : Nat) : Dev :=
  (d.changeState u (fun h => { h with st := .observed, remain := observedTime, unfence := false })).raise
    Reg.STC_HEALTH_SUM Fld.STC_HEALTH_SUM_RECORD_DIRTY

/-- The core logic stays FENCED while two of the core's arrays are (R329). -/
def Dev.keepsFence (d : Dev) (u : Nat) : Bool := decide (u % 6 = 4 ∧ 2 ≤ d.fencedArrays (u / 6))

/-- UNFENCE. -/
def execUnfence (p : Port) (s : State) := act s (fun d => d.adminSem p 0x31 (fun raw =>
  let u := fldAt raw 0x10 0 6
  if 47 < u then detail adFIELD
  else if d.unitSt u ≠ .fenced then detail adBAD_STATE
  else if d.keepsFence u then detail adBAD_STATE
  else if (d.unit u).unfence then .done 1 d
  else if d.coreFree (u / 6) then .done 0 (d.unfenceNow u)
  else .done 1 (d.updUnit u (fun h => { h with unfence := true }))))

/-- UNFENCE_TAKES_EFFECT of unit u: a core logic that has to stay FENCED keeps its change pending. -/
def execUnfenceTakesEffect (u : Fin 48) (s : State) := act s (fun d =>
  if (d.unit u).unfence && d.coreFree (u.val / 6) && !d.keepsFence u then d.unfenceNow u else d)

/-- ECC_WINDOW_END: the 24-hour counts restart (R322). -/
def execEccWindowEnd (s : State) := act s (fun d =>
  { d with units := d.units.map (fun (e : Nat × HUnit) => (e.1, { e.2 with corr := 0 })) })

/-! ### Records (R324, R435) -/

/-- HEALTH_RECORD_WRITE: firmware writes the states after a fence change. -/
def execHealthRecordWrite (s : State) := act s (fun d =>
  if d.fwRunning && !d.fw.stopped && decide (d.fld Reg.STC_HEALTH_SUM Fld.STC_HEALTH_SUM_RECORD_DIRTY = 1) then
    d.updateRec.recordClean
  else d)

/-- HEALTH_AGE_UPDATE: 24 hours of powered time have passed. -/
def execHealthAgeUpdate (s : State) := act s (fun d => if d.fwRunning && !d.fw.stopped then d.updateRec else d)

end Sys2Proof.Machine
end

