-- ==== Sys2Proof/Machine/Reset.lean ====
section
/-! DEFINITION. Resets, the boot sequence and the rest-stop test (R362, R426 to R437, R470). -/

namespace Sys2Proof.Machine

/-! ### Resets (R427, Table 16.2) -/

/-- The device right after a reset that leaves `k` in the flash, the fuses and the always-on domain: every other piece of
state is at its reset value. -/
def Dev.afterReset (d : Dev) (k : Keep) : Dev :=
  { ctr := d.ctr, epoch := d.epoch + 1, cap48 := d.cap48, keep := k, out := d.out }

def State.resetTo (s : State) (k : Keep) : State := { dev := s.dev.afterReset k, pending := s.pending }

/-- STC_RESET_CAUSE (Table 16.7). -/
def causeCold : Word := 1
def causeWarm : Word := 2
def causeHost : Port → Word
  | .a => 4
  | .b => 8
def causeSupply : Word := 16
def causeTrip : Word := 32

/-- COLD_RESET: PORST_N held low; `aon`: VDD_AON has held since the last reset. It ends a thermal trip and the loss of
REFCLK. -/
def execColdReset (aon : Bool) (s : State) : Host.Outcome State Fault Refusal :=
  let k := s.dev.keep
  let k := if aon then k else { k with supplyLog := 0, supplyTime := 0 }
  let r := s.resetTo { k with cause := if s.dev.tripped then causeCold ||| causeTrip else causeCold }
  .next { r with dev := { r.dev with ctr := r.dev.ctr + 1 } }

/-- WARM_RESET: RESET_N held low. -/
def execWarmReset (s : State) := actAll s (fun s => s.resetTo { s.dev.keep with cause := causeWarm })

/-- HOST_RESET: a port writes its HPx_RESET. -/
def execHostReset (p : Port) (v : Word) (s : State) := actAll s (fun s =>
  if v ≠ 0xA55A#32 then s
  else if s.dev.holdsSem0 p then s.resetTo { s.dev.keep with cause := causeHost p }
  else { s with dev := s.dev.raise (Reg.HPx_STATUS p.idx) Fld.HPx_STATUS_WR_REJECT })

/-- SUPPLY_RESET: supply 0 VDD_CORE, 1 VDD_SOC, 2 VDD_SRAM, 3 VDD_AON crosses its RESET level; the log keeps the rail,
VALID and the time. -/
def execSupplyReset (rail : Fin 4) (s : State) := actAll s (fun s =>
  s.resetTo { s.dev.keep with
    cause := causeSupply, supplyLog := BitVec.ofNat 32 (rail.val + 4), supplyTime := s.dev.time })

/-- REFCLK_LOSS (R470). -/
def execRefclkLoss (s : State) : Host.Outcome State Fault Refusal := .next { s with dev := { s.dev with refLost := true } }

/-! ### The health record at start (R430, R437) -/

/-- REC_CODE of a copy. -/
def HRec.code (r : HRec) : Nat :=
  if r.defect ≠ 0 then r.defect
  else if r.clean = false then 6
  else if 8 ≤ r.starts then 7
  else if 2592000 ≤ r.age then 8
  else 0

/-- The copy with the higher SEQ among those that pass a test. -/
def Keep.bestRec (k : Keep) (ok : HRec → Bool) : Option (Nat × HRec) :=
  k.recs.foldl (fun (acc : Option (Nat × HRec)) (e : Nat × HRec) =>
    if !ok e.2 then acc
    else match acc with
      | some b => if b.2.seq < e.2.seq then some e else acc
      | none => some e) none

/-- REC_CODE: the first test that fails, of the copy with the higher SEQ. -/
def Keep.recCode (k : Keep) (flash : Bool) : Nat :=
  if !flash then 1
  else if (k.bestRec HRec.valid).isSome then 0
  else match k.bestRec (fun _ => true) with
    | some e => e.2.code
    | none => 2

def healthOf (c : Nat) : Health := if c = 1 then .observed else if c = 2 then .fenced else .healthy

/-- Unit states and timers as a record gives them. -/
def Dev.loadUnits (d : Dev) (r : HRec) : Dev :=
  ((List.range 48).zip r.units).foldl (fun d e =>
    let st := healthOf e.2.1
    d.updUnit e.1 (fun h => { h with st := st, remain := if st = .observed then e.2.2 else 0 })) d

/-- Fences of a self-test, and the core logic of a core with two fenced arrays (R329, R431). -/
def Dev.fenceTested (d : Dev) (bad : List (Fin 48)) : Dev :=
  let d := bad.foldl (fun d u => d.fenceUnit u.val) d
  (List.range 8).foldl (fun d n => if d.logicDue n then d.fenceUnit (6 * n + 4) else d) d

/-- STC_BIST_FAIL of a test: LBIST bit n for core logic, MBIST bit n for a core memory or an accumulator bank. -/
def bistWord (bad : List (Fin 48)) (hamper : Bool) : Word :=
  let l := (List.range 8).foldl (fun x n => x + (if bad.any (fun u => decide (u.val = 6 * n + 4)) then pow2 n else 0)) 0
  let m := (List.range 8).foldl (fun x n =>
    x + (if bad.any (fun u => decide (u.val / 6 = n ∧ u.val % 6 ≠ 4)) then pow2 (8 + n) else 0)) 0
  BitVec.ofNat 32 (l + m + b2n hamper * pow2 16)

/-! ### The user layer at start (R422) -/

/-- A copy that can be used: whole, every trim within its margin. -/
def CalCopy.usable : CalCopy → Option CalLayer
  | .layer l => if (List.range 9).any (fun i => decide ((Config.margin i : Int) < (l.trims.getD i 0).natAbs)) then none else some l
  | _ => none

def Keep.bestLayer (k : Keep) : Option CalLayer :=
  match k.cal0.usable, k.cal1.usable with
  | some x, some y => if x.seq < y.seq then some y else some x
  | some x, none => some x
  | none, y => y

/-- The layer that the device starts with, its trims and its K. -/
def Dev.loadLayer (d : Dev) (flash : Bool) : Dev :=
  match if flash then d.keep.bestLayer else none with
  | some l =>
    let d := { d with fw := { d.fw with layer := some l, trims := l.trims } }
    if l.k = 0 then d else d.setFld Reg.PM_EST_CORR Fld.PM_EST_CORR_K l.k
  | none =>
    if flash && decide (d.keep.cal0 ≠ .absent ∨ d.keep.cal1 ≠ .absent) then d.raise Reg.FW_STATUS Fld.FW_STATUS_CAL_FALLBACK
    else d

/-! ### Boot (R429 to R431) -/

/-- STC_START_STATUS. -/
def startStatus (path phase code fail chan : Nat) : Word :=
  BitVec.ofNat 32 (path + phase * pow2 2 + code * pow2 4 + fail * pow2 8 + chan * pow2 10)

/-- MC_CFG RATE in units of 100 MT/s, of one of the five rates of R187. -/
def rateCode (r : Fin 5) : Nat := [128, 112, 96, 80, 64].getD r.val 64

/-- The part of the boot that a start with or without a valid record has: units, self-test, PATH. -/
def Dev.bootUnits (d : Dev) (b : BootIn) : Dev :=
  let code := d.keep.recCode b.flash
  let good := if b.flash then d.keep.bestRec (fun r => decide (r.defect = 0)) else none
  let age := (good.map (fun (e : Nat × HRec) => e.2.age)).getD 0
  let d := { d with fw := { d.fw with rec_ := good, ageBase := age } }
  if code = 0 then
    match d.keep.bestRec HRec.valid with
    | some e =>
      let d := { d with fw := { d.fw with rec_ := some e, ageBase := e.2.age } }
      ((d.loadUnits e.2).raise Reg.FW_STATUS Fld.FW_STATUS_QUICK_START).setReg Reg.STC_START_STATUS (startStatus 1 0 code 0 0)
    | none => d
  else
    let d := { d with fw := { d.fw with ageBase := 0 } }
    let d := match good with
      | some e => d.loadUnits e.2
      | none => d
    let d := d.setReg Reg.STC_START_STATUS (startStatus 2 1 code 0 0)
    (d.fenceTested b.badUnits).setReg Reg.STC_BIST_FAIL (bistWord b.badUnits b.hamper)

/-- How the boot ends: an LPDDR6 channel or the Hamper stops it before step 8. -/
def Dev.bootEnd (d : Dev) (b : BootIn) : Dev :=
  let path := d.fld Reg.STC_START_STATUS Fld.STC_START_STATUS_PATH
  let code := d.fld Reg.STC_START_STATUS Fld.STC_START_STATUS_REC_CODE
  match b.badChannel with
  | some c => d.setReg Reg.STC_START_STATUS (startStatus path 3 code 2 c.val)
  | none =>
    let d := d.setFld Reg.MC_CFG Fld.MC_CFG_RATE (rateCode b.rate)
    if path = 2 ∧ b.hamper = true then d.setReg Reg.STC_START_STATUS (startStatus path 3 code 1 0)
    else
      let d := d.setReg Reg.STC_START_STATUS (startStatus path 2 code 0 0)
      let d := if b.rngFail then d.raise Reg.SEC_STATUS Fld.SEC_STATUS_RNG_FAIL else d
      { d.raise Reg.SEC_STATUS Fld.SEC_STATUS_ID_READY with fw := { d.fw with key := some (sha3 Config.otpSeed) } }

/-- The straps are sampled at a release of PORST_N or RESET_N only (R463). -/
def Dev.sampleStraps (d : Dev) (v : BitVec 8) : Dev :=
  if d.keep.cause &&& (causeCold ||| causeWarm) = 0 then d else { d with keep := { d.keep with straps := v } }

/-- BOOT: the boot ROM, once after each reset. -/
def execBoot (b : BootIn) (s : State) := act s (fun d =>
  if d.fw.booted then d
  else
    let d := d.sampleStraps b.straps
    let d := { d with fw := { d.fw with booted := true } }
    ((d.loadLayer b.flash).bootUnits b).bootEnd b)

/-! ### The rest-stop test (R432 to R434) -/

/-- REST_STOP_TEST: `bad` and `hamper`: what fails; `repeated`: a pair was repeated; `void`: pairs whose results were void
twice; `writeOk`: the flash takes the record. -/
def execRestStopTest (bad : List (Fin 48)) (hamper repeated : Bool) (void : List (Fin 4)) (writeOk : Bool) (s : State) :=
  act s (fun d =>
    if !d.fw.stopped || decide (d.fld Reg.STC_STOP_STATUS Fld.STC_STOP_STATUS_STOP_STEP ≠ 1) then d
    else
      let bad := bad ++ (List.finRange 48).filter (fun u => void.any (fun p => decide (u.val / 12 = p.val ∧ u.val % 6 = 4)))
      let d := ((d.raise Reg.SEC_STATUS Fld.SEC_STATUS_ZEROISED).loseSram 0x4000000)
      let d := { d with cores := [], epoch := d.epoch + 1, fw := { d.fw with key := none } }
      let d := (d.fenceTested bad).setReg Reg.STC_BIST_FAIL (bistWord bad hamper)
      let ok := writeOk && d.hasFlash
      let w := bistWord bad hamper
      let d := if !ok then d
        else (d.writeRec { clean := !hamper, seq := 0, starts := 0, age := 0, lbist := w.setWidth 8
                           mbist := (w >>> 8).setWidth 8, hamper := hamper, units := d.unitStates }).recordClean
      let again := repeated || !void.isEmpty
      (d.setReg Reg.STC_STOP_STATUS (BitVec.ofNat 32 ((if ok then 6 else 7) + 3 * pow2 3 + b2n again * pow2 5))).setFld
        Reg.STC_ALIVE Fld.STC_ALIVE_EN 0)

end Sys2Proof.Machine
end

