-- ==== Sys2Proof/Machine/Idle.lean ====
section
/-! DEFINITION. The idle states (R366) and what every TCLK edge does (R203, R368). -/

namespace Sys2Proof.Machine

/-! ### Entry conditions of IDLE_RETAIN (R366) -/

/-- The entry that is, or would be once consumed, the head of a queue. -/
def Dev.nextHead (d : Dev) (q : Nat) (x : Queue) : Option Entry :=
  match x.head with
  | some e => some e
  | none =>
    if x.sqCons = x.sqTail then none
    else
      let e : Entry := { count := x.sqCons.toNat, raw := d.fwBytes (x.sqBase + 64 * (x.sqCons.toNat % pow2 x.sqLog)) 64 }
      if (d.consumed q x e).isSome then none else some e

/-- A queue's head can start; an admin command can be executed. -/
def Dev.headWaits (d : Dev) (q : Nat) (x : Queue) : Bool :=
  match d.nextHead q x with
  | none => false
  | some e => if isAdmin q then !d.ringShut q && decide (0 < x.freeSlots) else d.canStart x e

/-- A camera stream, decode context, encode context or batch stream is enabled. -/
def Dev.mediaOn (d : Dev) : Bool :=
  d.med.str.any (fun (e : Nat × CamStr) => e.2.enabled) || d.med.dctx.any (fun (e : Nat × DCtx) => e.2.on || e.2.next.isSome) ||
  d.med.ectx.any (fun (e : Nat × ECtx) => e.2.on) || d.med.bstr.any (fun (e : Nat × BStr) => e.2.on)

/-- Packets of the link and of time, which every idle port goes on exchanging. -/
def housekeeping (k : FPkt) : Bool := decide (k.ty = tyHello ∨ k.ty = tyTimeReq ∨ k.ty = tyTimeRsp ∨ k.ty = tyTimeSync)

/-- A fabric port carries traffic. -/
def Dev.fabTraffic (d : Dev) : Bool :=
  !d.fab.mwait.isEmpty || d.fab.rings.any (fun (e : Nat × SRing) => !e.2.unacked.isEmpty) ||
  d.fab.ports.any (fun (e : Nat × FPort) =>
    !e.2.vc1.isEmpty || !e.2.fwd.isEmpty || e.2.own.any (fun y => !y.2.isEmpty) || e.2.branch.any (fun y => !y.2.isEmpty) ||
    e.2.sent.any (fun y => !housekeeping y.1))

def Dev.idleReady (d : Dev) : Bool :=
  d.jobs.isEmpty && d.queues.all (fun (e : Nat × Queue) => !d.headWaits e.1 e.2) && !d.mediaOn && !d.fabTraffic

/-- IDLE_RETAIN_ENTER: the conditions have held for DELAY. -/
def execIdleRetainEnter (s : State) := act s (fun d =>
  if d.pm.idle = 0 ∧ d.fld Reg.PM_IDLE_CTRL Fld.PM_IDLE_CTRL_AUTO = 1 ∧ d.idleReady then
    d.updPm (fun p => { p with idle := 1, waking := false })
  else d)

/-- IDLE_WAKE: something that wakes the device arrives in IDLE_RETAIN. -/
def execIdleWake (s : State) := act s (fun d => d.stir false)

/-- WAKE: a port writes PM_IDLE_CTRL WAKE, which needs no semaphore. -/
def execWake (_p : Port) (s : State) := act s (fun d => if d.pm.idle = 2 then d.stir true else d)

/-- WAKE_COMPLETE. -/
def execWakeComplete (s : State) := act s (fun d =>
  if d.pm.waking then d.updPm (fun p => { p with idle := 0, waking := false }) else d)

/-! ### DEEP_IDLE -/

/-- Memory that DEEP_IDLE loses: the core memories, and the Hamper outside its reserve (Table 12.3). -/
def deepLost (a : Nat) : Bool := isCoreMem a || decide (hamperBase ≤ a ∧ a < hamperBase + 0x3800000)

/-- Something that DEEP_IDLE keeps lies in memory that it loses. -/
def Dev.deepHeld (d : Dev) : Bool :=
  d.queues.any (fun (e : Nat × Queue) =>
    (isAdmin e.1 || decide (e.2.state ≠ .free)) && (deepLost e.2.sqBase || deepLost e.2.cqBase)) ||
  d.ctxs.any (fun (e : Nat × Ctx) => deepLost e.2.basket || deepLost e.2.bind)

/-- What DEEP_IDLE loses: accumulators and register sets are undefined afterwards. -/
def Dev.loseDeep (d : Dev) : Dev :=
  { d.loseSram 0x3800000 with
    epoch := d.epoch + 1, cores := d.cores.map (fun (e : Nat × Core) => (e.1, { e.2 with acc := [], sets := [] })) }

/-- DEEP: a port writes PM_IDLE_CTRL DEEP. -/
def execDeep (p : Port) (s : State) := act s (fun d =>
  if d.holdsSem0 p && d.idleReady && !d.deepHeld then d.loseDeep.updPm (fun p => { p with idle := 2, waking := false })
  else d.raise Reg.PM_EVENT Fld.PM_EVENT_WR_REJECT)

/-! ### The TCLK edge -/

/-- ACLK cycles of one TCLK period, in sixteenths (R13); fewer, by a free amount, while pulses are stretched (R361). -/
def Dev.tickCycles (d : Dev) : Nat :=
  let x := 18 * (16 - d.pm.step)
  if d.stretching then (Config.freeWord d.ctr 13).toNat % (x + 1) else x

/-- The OBSERVED timers count powered seconds (R323). -/
def Dev.countObserved (d : Dev) : Dev :=
  if d.ticks % secTicks ≠ 0 then d
  else { d with units := d.units.map (fun (e : Nat × HUnit) => (e.1, { e.2 with remain := e.2.remain - 1 })) }

/-- BUCKET_REFILL: one TCLK edge: TIME advances, the buckets fill, the counts of ACLK cycles and of powered time go on, and
acknowledgements whose time has come are sent. -/
def execBucketRefill (s : State) := act s (fun d =>
  let d := { d with ticks := d.ticks + 1, cyc16 := d.cyc16 + d.tickCycles }
  d.tickTime.refill.countObserved.ackTick)

end Sys2Proof.Machine
end

