-- ==== Sys2Proof/Machine/Check.lean ====
section
/-! DEFINITION. What CHECK judges: every dirty register of a staging area, with the port's other staged values and the values
in force (R26), by the rules of the chapter that defines it. -/

namespace Sys2Proof.Machine

/-- Codes of Table 1.6. -/
def ccOK : Nat := 0x00
def ccACCEPTED : Nat := 0x01
def ccEMPTY : Nat := 0x02
def ccNO_SEM : Nat := 0x10
def ccNOT_OWNER : Nat := 0x11
def ccFIELD_RANGE : Nat := 0x12
def ccCONFLICT : Nat := 0x13
def ccCAPACITY : Nat := 0x14
def ccBUSY : Nat := 0x15
def ccTIME_PAST : Nat := 0x16
def ccPORT_IDLE : Nat := 0x17
def ccEXPIRED : Nat := 0x18
def ccCANCELLED : Nat := 0x19
def ccBAD_COMMAND : Nat := 0x1A

/-- A candidate: the device as an APPLY of the dirty set would leave its registers, the port, and the dirty set. -/
structure Cand where
  d : Dev
  p : Port
  dirty : Tbl Word
  deriving Repr

/-- The registers of a device with a dirty set applied. -/
def Dev.withRegs (d : Dev) (dirty : Tbl Word) : Dev := dirty.foldl (fun d e => d.setReg e.1 e.2) d

def Dev.cand (d : Dev) (p : Port) : Cand := { d := d.withRegs (d.port p).stage, p := p, dirty := (d.port p).stage }

def Cand.isDirty (c : Cand) (off : Nat) : Bool := (Tbl.find? c.dirty off).isSome

/-- The object belongs to the other port. -/
def Cand.foreign (c : Cand) (cls idx : Nat) : Bool := decide (c.d.owner cls idx = some c.p.other)

/-- The first code whose condition holds. -/
def firstCode : List (Bool × Nat) → Option Nat
  | [] => none
  | (b, k) :: t => if b then some k else firstCode t

/-- A descriptor as the candidate has it: the bytes that a dirty DESC names, else the copy of the last commit. -/
def Cand.desc (c : Cand) (lo hi size : Nat) (last : List Byte) : List Byte :=
  if c.isDirty lo || c.isDirty hi then c.d.readStruct agentFw (c.d.reg64 lo hi) size else last

/-- A dirty DESC register does not name a whole structure: aligned to 64, in mapped memory. -/
def Cand.descAddrBad (c : Cand) (lo hi size : Nat) : Bool :=
  (c.isDirty lo || c.isDirty hi) && (decide (c.d.reg64 lo hi % 64 ≠ 0) || (c.d.firstBad (c.d.reg64 lo hi) size).isSome)

/-- Some of the 48-bit addresses or words at these offsets of a structure are not multiples of `n`. -/
def misaligned (l : List Byte) (n : Nat) (offs : List Nat) : Bool := offs.any (fun o => decide (wordAt l o % n ≠ 0))

/-! ### Streams and receivers (R226, R227, R233) -/

def Cand.strDesc (c : Cand) (n : Nat) : List Byte :=
  c.desc (Reg.CAM_STRn_DESC_LO n) (Reg.CAM_STRn_DESC_HI n) 128 (c.d.str n).last
def Cand.strDirty (c : Cand) (n : Nat) : Bool := c.isDirty (Reg.CAM_STRn_DESC_LO n) || c.isDirty (Reg.CAM_STRn_DESC_HI n)
def Cand.strOn (c : Cand) (n : Nat) : Bool := decide (c.d.fld (Reg.CAM_STRn_CTRL n) Fld.CAM_STRn_CTRL_EN = 1)

/-- The streams that the candidate enables, with their descriptors. -/
def Cand.streams (c : Cand) : List (Nat × List Byte) :=
  ((List.range 32).filter (fun n => c.strOn n)).map (fun n => (n, c.strDesc n))

/-- The fields of a stream descriptor (Table 8.3). -/
def streamFields : List (Nat × Nat × Nat) :=
  [(0, 0, 22), (4, 0, 32), (8, 0, 32), (0xC, 0, 32), (0x10, 0, 17), (0x10, 20, 8), (0x14, 0, 32), (0x18, 0, 4), (0x18, 8, 8),
   (0x1C, 0, 18), (0x28, 0, 32), (0x2C, 0, 24), (0x38, 0, 32), (0x3C, 0, 24), (0x68, 0, 32), (0x6C, 0, 32), (0x70, 0, 32)] ++
  addrField 0x20 ++ addrField 0x30 ++ addrField 0x40 ++ addrField 0x48 ++ addrField 0x50 ++ addrField 0x58 ++ addrField 0x60 ++
  addrField 0x74

/-- A stream descriptor with a field outside its range or alignment, or another FIELD_RANGE case of R233. -/
def Cand.streamBad (c : Cand) (l : List Byte) : Bool :=
  let isp := decide (dDest l = 1 ∨ dDest l = 2)
  strayBits l 32 streamFields || !dtLong (dDt l) ||
  decide (23 < dPort l ∨ dDest l = 3 ∨ dExps l = 0 ∨ 15 < dVc l + dExps l - 1 ∨ dW l = 0 ∨ 16383 < dW l ∨ dH l = 0 ∨ 16383 < dH l) ||
  decide ((11 < dBus l ∧ dBus l ≠ 15) ∨ (dBus l ≠ 15 ∧ (dDe l = 0 ∨ dDg l = 0)) ∨ dInit l = 0 ∨ dNbuf l = 0 ∨ dNstat l = 0) ||
  misaligned l 64 [0x20, 0x28, 0x2C, 0x30, 0x38, 0x3C, 0x40, 0x60, 0x74] || misaligned l 32 [0x48] || misaligned l 4 [0x50, 0x58] ||
  (dUnpack l && !dtRaw (dDt l)) ||
  (isp && (!dtRaw (dDt l) || decide (8192 < dW l ∨ 8192 < dH l ∨ dPeriod l = 0) ||
    (c.d.firstBad (addrAt l 0x60) 8192).isSome || paramBad (c.d.readStruct agentFw (addrAt l 0x60) 8192) (dW l) (dH l) (dExps l)))

/-- The decoded rate of receiver i in 1/7 Mbit/s, and the limit of each of its ports. -/
def Cand.rxRate (c : Cand) (i : Nat) : Nat × Nat :=
  let w := c.d.reg (Reg.CAM_CSIi_CFG i)
  let r := Fld.CAM_CSIi_CFG_RATE.get w
  match Fld.CAM_CSIi_CFG_MODE.get w with
  | 1 => (28 * r, 126000)
  | 2 => (14 * r, 63000)
  | 3 => (16 * Fld.CAM_CSIi_CFG_TRIOS.get w * r, 126000)
  | 4 => (16 * r, 63000)
  | _ => (0, 126000)

def Cand.rxOver (c : Cand) (i : Nat) : Bool := decide ((c.rxRate i).2 < (c.rxRate i).1)

/-- Two enabled streams claim one port, an overlapping virtual channel and one data type. -/
def claimClash (a b : List Byte) : Bool :=
  decide (dPort a = dPort b ∧ dDt a = dDt b ∧ dVc a < dVc b + dExps b ∧ dVc b < dVc a + dExps a)

/-- A pipe carries more than 8 streams, or more than 1.8 Gpixel/s. -/
def Cand.pipeOver (c : Cand) (pipe : Nat) : Bool :=
  let l := c.streams.filter (fun e => decide ((dDest e.2 = 1 ∨ dDest e.2 = 2) ∧ dPipe e.2 = pipe))
  let r := l.foldl (fun (x : Nat × Nat) (e : Nat × List Byte) =>
    let per := Nat.max 1 (dPeriod e.2)
    (x.1 * per + dW e.2 * dH e.2 * dExps e.2 * 1000000000 * x.2, x.2 * per)) (0, 1)
  decide (8 < l.length ∨ 1800000000 * r.2 < r.1)

/-- A dirty stream register. -/
def Cand.streamCode (c : Cand) (n : Nat) : Option Nat :=
  let l := c.strDesc n
  let old := (c.d.str n).last
  let judged := c.strOn n || c.strDirty n
  let others := c.streams.filter (fun e => decide (e.1 ≠ n))
  firstCode
    [(!old.isEmpty && c.foreign 2 (dPort old), ccNOT_OWNER),
     (judged && (c.foreign 2 (dPort l) || (decide (dBus l ≠ 15) && c.foreign 3 (dBus l))), ccNOT_OWNER),
     (c.descAddrBad (Reg.CAM_STRn_DESC_LO n) (Reg.CAM_STRn_DESC_HI n) 128 || (judged && c.streamBad l), ccFIELD_RANGE),
     (c.strOn n && others.any (fun e => claimClash l e.2), ccCONFLICT),
     (judged && (!c.d.portExists (dPort l) || decide (dBus l = 15 ∧ (dDe l ≠ 0 ∨ dDg l ≠ 0))), ccCONFLICT),
     (c.strOn n && (c.rxOver (dPort l / 2) || (decide (dDest l ≠ 0) && c.pipeOver (dPipe l))), ccCAPACITY)]

/-- A dirty receiver register. -/
def Cand.rxCode (c : Cand) (i : Nat) : Option Nat :=
  let w := c.d.reg (Reg.CAM_CSIi_CFG i)
  let m := Fld.CAM_CSIi_CFG_MODE.get w
  let r := Fld.CAM_CSIi_CFG_RATE.get w
  let t := Fld.CAM_CSIi_CFG_TRIOS.get w
  firstCode
    [(c.foreign 2 (2 * i) || c.foreign 2 (2 * i + 1), ccNOT_OWNER),
     (decide (4 < m ∨ (m = 3 ∧ t = 0) ∨ (m ≠ 0 ∧ r < 80) ∨ ((m = 1 ∨ m = 2) ∧ 4500 < r) ∨ ((m = 3 ∨ m = 4) ∧ 6000 < r)), ccFIELD_RANGE),
     (c.streams.any (fun e => decide (dPort e.2 / 2 = i) && !c.d.portExists (dPort e.2)), ccCONFLICT),
     (c.rxOver i, ccCAPACITY)]

/-! ### Video and batches (R264, R270, R276) -/

def Cand.dcDesc (c : Cand) (n : Nat) : List Byte :=
  c.desc (Reg.VID_DCTXn_DESC_LO n) (Reg.VID_DCTXn_DESC_HI n) 128 (c.d.dctx n).last
def Cand.dcOn (c : Cand) (n : Nat) : Bool := decide (c.d.fld (Reg.VID_DCTXn_CTRL n) Fld.VID_DCTXn_CTRL_EN = 1)
def dcRate (l : List Byte) : Nat := fldAt l 8 0 10

/-- A decode-context descriptor with a field outside its range or alignment (Table 9.2, R263, R264). -/
def dcBad (l : List Byte) : Bool :=
  let codec := fldAt l 0 0 2
  let w := dcMaxW l
  let h := dcMaxH l
  let b := if dcTen l then 2 else 1
  let stride := fldAt l 0x3C 0 24
  let chroma := wordAt l 0x40
  strayBits l 32 ([(0, 0, 13), (4, 0, 32), (8, 0, 10), (0xC, 0, 18), (0x18, 0, 32), (0x38, 0, 32), (0x3C, 0, 24), (0x40, 0, 32)] ++
    addrField 0x10 ++ addrField 0x20 ++ addrField 0x28 ++ addrField 0x30 ++ addrField 0x48 ++ addrField 0x50) ||
  decide (codec = 3 ∨ dcSlots l = 0 ∨ 17 < dcSlots l ∨ dcNbuf l = 0 ∨ w < 64 ∨ 8192 < w ∨ h < 64 ∨ 8192 < h ∨ dcRate l = 0 ∨ 1000 < dcRate l) ||
  misaligned l 64 [0x10, 0x20, 0x30, 0x38, 0x3C, 0x40, 0x48] || misaligned l 4 [0x28, 0x50] ||
  decide ((if codec = 0 then 9437184 else 35651584) < w * h ∨ wordAt l 0x18 < dcSlots l * dcSlotBytes l ∨ stride < b * up64 w ∨
    chroma < stride * up64 h ∨ wordAt l 0x38 < chroma + stride * up64 h / 2)

/-- One engine's enabled contexts are too many or too fast. -/
def Cand.dcOver (c : Cand) (engine : Nat) : Bool :=
  let l := (((List.range 64).filter (fun n => c.dcOn n)).map (fun n => c.dcDesc n)).filter (fun l => decide (dcEngine l = engine))
  decide (32 < l.length ∨ 1000 < l.foldl (fun x l => x + dcRate l) 0)

def Cand.dctxCode (c : Cand) (n : Nat) : Option Nat :=
  let l := c.dcDesc n
  let lo := Reg.VID_DCTXn_DESC_LO n
  let hi := Reg.VID_DCTXn_DESC_HI n
  let judged := c.dcOn n || c.isDirty lo || c.isDirty hi
  firstCode
    [(c.foreign 4 n, ccNOT_OWNER), (c.descAddrBad lo hi 128 || (judged && dcBad l), ccFIELD_RANGE),
     (c.dcOn n && c.dcOver (dcEngine l), ccCAPACITY)]

def Cand.ecDesc (c : Cand) (n : Nat) : List Byte :=
  c.desc (Reg.VID_ECTXn_DESC_LO n) (Reg.VID_ECTXn_DESC_HI n) 64 (c.d.ectx n).last
def Cand.ecOn (c : Cand) (n : Nat) : Bool := decide (c.d.fld (Reg.VID_ECTXn_CTRL n) Fld.VID_ECTXn_CTRL_EN = 1)

/-- An encode-context descriptor with a field outside its range or alignment (Table 9.6). -/
def ecBad (l : List Byte) : Bool :=
  let cbr := bit (wordAt l 0) 1
  strayBits l 16 ([(0, 0, 8), (4, 0, 32), (8, 0, 10), (8, 16, 16), (0xC, 0, 32), (0x10, 0, 16), (0x14, 0, 18), (0x30, 0, 32)] ++
    addrField 0x18 ++ addrField 0x20 ++ addrField 0x28 ++ addrField 0x34) ||
  decide (51 < fldAt l 0 2 6 ∨ ecW l % 2 ≠ 0 ∨ ecW l < 64 ∨ 4096 < ecW l ∨ ecH l % 2 ≠ 0 ∨ ecH l < 64 ∨ 2176 < ecH l) ||
  decide (dcRate l = 0 ∨ 1000 < dcRate l ∨ ecPeriod l = 0) ||
  (cbr && decide (wordAt l 0xC < 64 ∨ 800000 < wordAt l 0xC ∨ fldAt l 0x10 0 16 < 10 ∨ 10000 < fldAt l 0x10 0 16)) ||
  misaligned l 64 [0x18, 0x28] || misaligned l 4 [0x20, 0x34] ||
  !(List.range 13).any (fun k => decide (ecRingBytes l = pow2 (16 + k)))

def Cand.ectxCode (c : Cand) (n : Nat) : Option Nat :=
  let l := c.ecDesc n
  let lo := Reg.VID_ECTXn_DESC_LO n
  let hi := Reg.VID_ECTXn_DESC_HI n
  let judged := c.ecOn n || c.isDirty lo || c.isDirty hi
  let rate := ((List.range 16).filter (fun m => c.ecOn m)).foldl (fun x m => x + dcRate (c.ecDesc m)) 0
  firstCode
    [(c.foreign 5 n, ccNOT_OWNER), (c.descAddrBad lo hi 64 || (judged && ecBad l), ccFIELD_RANGE),
     (c.ecOn n && decide (1000 < rate), ccCAPACITY)]

def Cand.bsDesc (c : Cand) (n : Nat) : List Byte :=
  c.desc (Reg.TAU_BSTRn_DESC_LO n) (Reg.TAU_BSTRn_DESC_HI n) 128 (c.d.bstr n).last
def Cand.bsOn (c : Cand) (n : Nat) : Bool := decide (c.d.fld (Reg.TAU_BSTRn_CTRL n) Fld.TAU_BSTRn_CTRL_EN = 1)

/-- A batch-stream descriptor with a field outside its range or alignment (Table 9.9). -/
def bsBad (l : List Byte) : Bool :=
  let f := bsFmt l
  strayBits l 32 ([(0, 0, 23), (4, 0, 32), (8, 0, 8), (0xC, 0, 32), (0x10, 0, 32), (0x14, 0, 18), (0x18, 0, 32), (0x1C, 0, 32),
    (0x20, 0, 32), (0x40, 0, 32)] ++ addrField 0x28 ++ addrField 0x30 ++ addrField 0x38 ++ addrField 0x48 ++ addrField 0x50 ++
    addrField 0x58) ||
  decide (bsN l = 0 ∨ 64 < bsN l ∨ bsNbatch l = 0 ∨ fldAt l 0 12 2 = 3 ∨ fldAt l 0 19 2 = 3) ||
  decide (¬(f = .uint8 ∨ f = .int8 ∨ f = .fp8e4m3 ∨ f = .bf16 ∨ f = .fp16)) ||
  decide (bsW l = 0 ∨ 4096 < bsW l ∨ bsH l = 0 ∨ 4096 < bsH l) ||
  (List.range 4).any (fun k => decide (bsShift l k < -8 ∨ 8 < bsShift l k)) ||
  misaligned l 64 [0x28, 0x38, 0x48] || misaligned l 4 [0x30, 0x50] || decide (wordAt l 0x40 < bsN l * bsS l)

def Cand.bstrCode (c : Cand) (n : Nat) : Option Nat :=
  let lo := Reg.TAU_BSTRn_DESC_LO n
  let hi := Reg.TAU_BSTRn_DESC_HI n
  let judged := c.bsOn n || c.isDirty lo || c.isDirty hi
  firstCode
    [(c.foreign 6 n, ccNOT_OWNER), (c.descAddrBad lo hi 128 || (judged && bsBad (c.bsDesc n)), ccFIELD_RANGE)]

/-! ### Image pipes' rings (R246, R260) -/

def Cand.mjobCode (c : Cand) (m : Nat) : Option Nat :=
  firstCode
    [(c.foreign 7 m, ccNOT_OWNER),
     (decide ((c.d.reg (Reg.ISPm_MJOB_RING_LO m)).toNat % 64 ≠ 0 ∨ (c.d.reg (Reg.ISPm_MJOB_PROD_LO m)).toNat % 4 ≠ 0), ccFIELD_RANGE)]

/-! ### Power (R347, R353, Table 12.4) -/

/-- The rails that the candidate enables. -/
def Cand.rails (c : Cand) : List Nat := (List.range 8).filter (fun m => c.d.railEnabled m)

def Cand.railCode (c : Cand) (m : Nat) : Option Nat :=
  let avs (k : Nat) := c.d.fld (Reg.PM_RAILm_CFG k) Fld.PM_RAILm_CFG_AVS_RAIL
  firstCode
    [(c.d.railEnabled m && c.rails.any (fun k => decide (k ≠ m ∧ avs k = avs m)), ccFIELD_RANGE),
     (decide ((c.rails.filter (fun k => decide (c.d.fld (Reg.PM_RAILm_CFG k) Fld.PM_RAILm_CFG_CORE = 1))).length ≠ 1), ccCONFLICT)]

/-- The floors, the compute minimum of 8 W and the rails not read exceed the cap. -/
def Cand.floorsOver (c : Cand) : Bool :=
  let d := c.d
  let f := d.fld Reg.PM_FLOOR Fld.PM_FLOOR_SENSE + d.fld Reg.PM_FLOOR Fld.PM_FLOOR_LINKS + d.fld Reg.PM_FLOOR Fld.PM_FLOOR_MEM
  decide (25 * d.fld Reg.PM_CAP Fld.PM_CAP_CAP < 25 * (f + 64) + 2 * d.unmeasured)

def Cand.pmCode (c : Cand) (off : Nat) : Option Nat :=
  let d := c.d
  if off = Reg.PM_MODE then
    firstCode [(decide (d.pmMode = 3 ∨ 8 < d.fixedStep ∨ 8 < d.fld Reg.PM_MODE Fld.PM_MODE_FALLBACK_STEP), ccFIELD_RANGE)]
  else if off = Reg.PM_CAP then
    let x := d.fld Reg.PM_CAP Fld.PM_CAP_CAP
    firstCode [(decide (x < 160 ∨ 880 < x), ccFIELD_RANGE), (c.floorsOver, ccCAPACITY)]
  else if off = Reg.PM_THERM then
    let a := d.fld Reg.PM_THERM Fld.PM_THERM_T1
    let b := d.fld Reg.PM_THERM Fld.PM_THERM_T2
    firstCode [(decide (a < 70 ∨ 105 < a ∨ b < 90 ∨ 110 < b ∨ b < a + 3), ccFIELD_RANGE)]
  else if off = Reg.PM_FLOOR ∨ off = Reg.PM_UNMEASURED then firstCode [(c.floorsOver, ccCAPACITY)]
  else c.railCode ((off - Reg.PM_RAILm_CFG 0) / 8)

/-! ### Compass (R376, R474) -/

def Cand.fsCode (c : Cand) (n : Nat) : Option Nat :=
  let per := (c.d.reg (Reg.CPS_FSYNCn_PERIOD n)).toNat
  let w := (c.d.reg (Reg.CPS_FSYNCn_WIDTH n)).toNat
  firstCode
    [(c.foreign 9 n, ccNOT_OWNER),
     (decide (per < 100000 ∨ 4000000000 < per ∨ w < 20 ∨ per - 20 < w), ccFIELD_RANGE)]

def Cand.cpsCode (c : Cand) (off : Nat) : Option Nat :=
  let d := c.d
  if off = Reg.CPS_CTRL then
    let x := d.fld Reg.CPS_CTRL Fld.CPS_CTRL_SLEW_PPM
    firstCode [(decide (x = 0 ∨ 500 < x), ccFIELD_RANGE)]
  else if off = Reg.CPS_LOCK_CFG then
    firstCode [(decide (d.fld Reg.CPS_LOCK_CFG Fld.CPS_LOCK_CFG_LOCK_NS = 0 ∨ d.fld Reg.CPS_LOCK_CFG Fld.CPS_LOCK_CFG_STEP_US = 0), ccFIELD_RANGE)]
  else if off = Reg.CPS_PPS_CTRL then
    let x := d.fld Reg.CPS_PPS_CTRL Fld.CPS_PPS_CTRL_WIDTH_MS
    firstCode [(c.foreign 9 24, ccNOT_OWNER), (decide (x = 0 ∨ 500 < x), ccFIELD_RANGE)]
  else if off = Reg.CPS_SYNC_CTRL then
    firstCode [(c.foreign 9 25, ccNOT_OWNER), (decide (d.fld Reg.CPS_SYNC_CTRL Fld.CPS_SYNC_CTRL_BAUD = 3), ccFIELD_RANGE)]
  else c.fsCode ((off - Reg.CPS_FSYNCn_CTRL 0) / 0x20)

/-! ### Fabric (R393, R395, R396, R408) -/

/-- A route image that CHECK refuses. -/
def routeBad (l : List Byte) : Bool :=
  (List.range 4096).any (fun i => decide (wordAt (l.drop (4 * i)) 0 / 64 ≠ 0)) ||
  (List.range 256).any (fun g =>
    let x := (l.drop (16384 + 8 * g)).take 8
    let w := wordAt x 0
    decide (bits w 7 9 ≠ 0 ∨ wordAt x 4 ≠ 0 ∨ (bit w 6 = true ∧ bit w 5 = true ∧ bits w 16 16 = 0)))

def routeBytes : Nat := 18432
def Cand.routeAddr (c : Cand) : Nat := c.d.reg64 Reg.FAB_ROUTE_LO Reg.FAB_ROUTE_HI

/-- Base and size of a window; enabled or not. -/
def Cand.win (c : Cand) (w : Nat) : Nat × Nat :=
  (c.d.reg64 (Reg.FAB_WINw_BASE_LO w) (Reg.FAB_WINw_BASE_HI w) % pow2 48, c.d.fld (Reg.FAB_WINw_SIZE w) Fld.FAB_WINw_SIZE_PAGES * 4096)
def Cand.winOn (c : Cand) (w : Nat) : Bool := decide (c.d.fld (Reg.FAB_WINw_BASE_HI w) Fld.FAB_WINw_BASE_HI_EN = 1)

/-- An inbound window, enabled or not, lies outside the regions of R395, or overlaps another where both are enabled. -/
def Cand.winCode (c : Cand) (w : Nat) : Option Nat :=
  let x := c.win w
  let pages := x.2 / 4096
  firstCode
    [(decide (pages = 0 ∨ 1048576 < pages) || isCoreMem x.1 || (c.d.firstBad x.1 x.2).isSome, ccFIELD_RANGE),
     (c.winOn w && (List.range 8).any (fun v =>
        let y := c.win v
        decide (v ≠ w) && c.winOn v && decide (x.1 < y.1 + y.2 ∧ y.1 < x.1 + x.2)), ccCONFLICT)]

def Cand.ringCode (c : Cand) (r : Nat) : Option Nat :=
  let w := c.d.reg (Reg.FAB_SRINGr_CTRL r)
  let n := Fld.FAB_SRINGr_CTRL_LOG2.get w
  firstCode
    [(decide ((Fld.FAB_SRINGr_CTRL_EN.get w = 1 ∧ (n < 4 ∨ 12 < n)) ∨ (c.d.reg (Reg.FAB_SRINGr_BASE_LO r)).toNat % 64 ≠ 0 ∨
      (c.d.reg (Reg.FAB_SRINGr_PROD_LO r)).toNat % 4 ≠ 0), ccFIELD_RANGE)]

def Cand.fabCode (c : Cand) (off : Nat) : Option Nat :=
  if c.foreign 8 0 then some ccNOT_OWNER
  else if off = Reg.FAB_TIMING then
    let x := c.d.fld Reg.FAB_TIMING Fld.FAB_TIMING_ACK_US
    firstCode [(decide (x < 10), ccFIELD_RANGE)]
  else if off = Reg.FAB_ROUTE_LO ∨ off = Reg.FAB_ROUTE_HI then
    let a := c.routeAddr
    firstCode
      [(decide (a ≠ 0) && (decide (a % 64 ≠ 0) || (c.d.firstBad a routeBytes).isSome || routeBad (c.d.readStruct agentFw a routeBytes)), ccFIELD_RANGE)]
  else if off = Reg.FAB_RFLAG_COUNT then
    firstCode [(decide (nFlags < c.d.fld Reg.FAB_RFLAG_COUNT Fld.FAB_RFLAG_COUNT_COUNT), ccFIELD_RANGE)]
  else if Reg.FAB_SRINGr_CTRL 0 ≤ off then c.ringCode ((off - Reg.FAB_SRINGr_CTRL 0) / 0x20)
  else if Reg.FAB_WINw_BASE_LO 0 ≤ off then c.winCode ((off - Reg.FAB_WINw_BASE_LO 0) / 0x10)
  else none

/-! ### CHECK (R26) -/

/-- The code that a dirty register fails with. -/
def Cand.code (c : Cand) (off : Nat) : Option Nat :=
  if off < 0x30000 then c.pmCode off
  else if off < 0x40000 then c.cpsCode off
  else if off < 0x200400 then c.rxCode ((off - 0x200000) / 0x40)
  else if off < 0x201000 then
    let b := (off - 0x200400) / 0x20
    firstCode [(c.foreign 3 b, ccNOT_OWNER)]
  else if off < 0x300000 then c.streamCode ((off - 0x201000) / 0x40)
  else if off < 0x400000 then c.mjobCode ((off - 0x300000) / 0x100)
  else if off < 0x500000 then c.bstrCode ((off - 0x400000) / 0x40)
  else if off < 0x501000 then c.dctxCode ((off - 0x500000) / 0x40)
  else if off < 0x600000 then c.ectxCode ((off - 0x501000) / 0x40)
  else c.fabCode off

/-- The first failure, by code and offset, of the dirty registers in ascending order. -/
def Cand.verdict (c : Cand) : Option (Nat × Nat) :=
  c.dirty.foldl (fun (acc : Option (Nat × Nat)) (e : Nat × Word) =>
    match acc with
    | some x => some x
    | none => (c.code e.1).map (fun k => (k, e.1))) none

end Sys2Proof.Machine
end

