-- ==== Sys2Proof/Machine/Commit.lean ====
section
/-! DEFINITION. Staging, CHECK and APPLY, the pending commit, and the instant at which it takes effect (R25 to R31, R35, R288). -/

namespace Sys2Proof.Machine

/-! ### Staging (R25) -/

/-- The bits of an RWS register that a write can set: none where the offset names no RWS register. -/
def rwsMask (off : Nat) : Word :=
  match regRow? off with
  | some r => r.accMask .rws
  | none => 0

def isRws (off : Nat) : Bool :=
  match regRow? off with
  | some r => r.has .rws
  | none => false

/-- A port stages a value. -/
def Dev.stageReg (d : Dev) (p : Port) (off : Nat) (v : Word) : Dev :=
  if isRws off then d.updPort p (fun x => { x with stage := Tbl.set x.stage off (v &&& rwsMask off) }) else d

/-- STAGE_WRITE: a port's write to an RWS register. -/
def execStageWrite (p : Port) (off : BitVec 25) (v : Word) (s : State) := act s (fun d => d.stageReg p off.toNat v)

/-! ### Codes (R31, R35) -/

/-- CODE of a port. -/
def Dev.commitCode (d : Dev) (p : Port) (k : Nat) : Dev := d.setFldP p Reg.GLB_COMMIT_STATUS Fld.GLB_COMMIT_STATUS_CODE k

def Dev.startCheck (d : Dev) (p : Port) (c : Checking) : Dev := d.updPort p (fun x => { x with checking := x.checking ++ [c] })

/-- CHECK. -/
def execCheck (p : Port) (s : State) := act s (fun d => d.startCheck p { apply := false })

/-- Why an APPLY fails before its CHECK: NO_SEM, BUSY, EMPTY (R27). -/
def Dev.applyCode (d : Dev) (p : Port) : Option Nat :=
  firstCode [(!d.holdsSem0 p, ccNO_SEM), (d.commit.isSome, ccBUSY), ((d.port p).stage.isEmpty, ccEMPTY)]

/-- APPLY with an assigned MODE; `cam`: the PORT field. -/
def execApply (p : Port) (mode : CommitMode) (cam : Fin 32) (s : State) := act s (fun d =>
  match d.applyCode p with
  | some k => d.commitCode p k
  | none => d.startCheck p { apply := true, mode := mode, cam := cam.val })

/-- DISCARD. -/
def execDiscard (p : Port) (s : State) := act s (fun d => (d.updPort p (fun x => { x with stage := [] })).commitCode p ccOK)

/-- BAD_COMMAND. -/
def execBadCommand (p : Port) (s : State) := act s (fun d => d.commitCode p ccBAD_COMMAND)

/-- COMMIT_CANCEL. -/
def execCommitCancel (p : Port) (s : State) := act s (fun d =>
  if !d.holdsSem0 p then d.commitCode p ccNO_SEM
  else if d.commit.isNone then d.commitCode p ccEMPTY
  else ({ d with commit := none }.commitCode .a ccCANCELLED).commitCode .b ccCANCELLED)

/-- EXPIRED: GLB_COMMIT_TIMEOUT milliseconds have passed since acceptance. -/
def execExpired (s : State) := act s (fun d =>
  match d.commit with
  | some c => if c.timeout = 0 then d else { d with commit := none }.commitCode c.port ccEXPIRED
  | none => d)

/-! ### Acceptance (R27, R232) -/

/-- AT_FRAME names a port that is not configured to receive: its receiver's mode does not provide it, or no enabled stream
names it. -/
def Dev.portIdle (d : Dev) (cam : Nat) : Bool :=
  !(decide (cam < 24) && d.portExists cam && (List.range 32).any (fun n =>
    let s := d.str n
    match s.next with
    | some x => x.en && decide (dPort x.desc = cam)
    | none => s.on && decide (dPort s.desc = cam)))

/-- GLB_APPLY_TIME of a port. -/
def Dev.applyTime (d : Dev) (p : Port) : Nat :=
  (d.regP p Reg.GLB_APPLY_TIME_LO).toNat + (d.regP p Reg.GLB_APPLY_TIME_HI).toNat * pow2 32

/-- The structures that the dirty registers name, as they stand at acceptance: by the offset of the _LO register. -/
def Cand.images (c : Cand) : Tbl (List Byte) :=
  let add (t : Tbl (List Byte)) (lo hi size : Nat) : Tbl (List Byte) :=
    if c.isDirty lo || c.isDirty hi then Tbl.set t lo (c.d.readStruct agentFw (c.d.reg64 lo hi) size) else t
  let t := (List.range 32).foldl (fun t n => add t (Reg.CAM_STRn_DESC_LO n) (Reg.CAM_STRn_DESC_HI n) 128) []
  let t := (List.range 64).foldl (fun t n => add t (Reg.VID_DCTXn_DESC_LO n) (Reg.VID_DCTXn_DESC_HI n) 128) t
  let t := (List.range 16).foldl (fun t n => add t (Reg.VID_ECTXn_DESC_LO n) (Reg.VID_ECTXn_DESC_HI n) 64) t
  let t := (List.range 64).foldl (fun t n => add t (Reg.TAU_BSTRn_DESC_LO n) (Reg.TAU_BSTRn_DESC_HI n) 128) t
  if c.routeAddr = 0 then (if c.isDirty Reg.FAB_ROUTE_LO || c.isDirty Reg.FAB_ROUTE_HI then Tbl.set t Reg.FAB_ROUTE_LO [] else t)
  else add t Reg.FAB_ROUTE_LO Reg.FAB_ROUTE_HI routeBytes

/-- The dirty set becomes the pending commit, and the port's dirty bits are clear. -/
def Dev.accept (d : Dev) (p : Port) (c : Checking) : Dev :=
  let x : Pending := {
    port := p, mode := c.mode, cam := c.cam, time := BitVec.ofNat 64 (d.applyTime p), dirty := (d.port p).stage, accepted := d.ticks
    timeout := d.fldP p Reg.GLB_COMMIT_TIMEOUT Fld.GLB_COMMIT_TIMEOUT_MS, images := (d.cand p).images }
  ({ d with commit := some x }.updPort p (fun y => { y with stage := [] })).commitCode p ccACCEPTED

/-- The end of the validation of an APPLY: SEM0 is tested again. -/
def Dev.endApply (d : Dev) (p : Port) (c : Checking) : Dev :=
  match d.applyCode p with
  | some k => d.commitCode p k
  | none =>
    match (d.cand p).verdict with
    | some x => (d.setRegP p Reg.GLB_COMMIT_FAIL_OFFSET (BitVec.ofNat 32 x.2)).commitCode p x.1
    | none =>
      match c.mode with
      | .immediate => d.accept p c
      | .atTime => if d.applyTime p ≤ d.time.toNat then d.commitCode p ccTIME_PAST else d.accept p c
      | .atFrame => if d.portIdle c.cam then d.commitCode p ccPORT_IDLE else d.accept p c

/-- VALIDATION_DONE: the oldest validation of a port ends. -/
def execValidationDone (p : Port) (s : State) := act s (fun d =>
  match (d.port p).checking with
  | [] => d
  | c :: t =>
    let d := d.updPort p (fun x => { x with checking := t })
    if c.apply then d.endApply p c
    else match (d.cand p).verdict with
      | some x => (d.setRegP p Reg.GLB_COMMIT_FAIL_OFFSET (BitVec.ofNat 32 x.2)).commitCode p x.1
      | none => d.commitCode p ccOK)

/-! ### Owners (R288) -/

/-- The camera port that a stream names: none before a descriptor is in force. -/
def Dev.streamPort (d : Dev) (n : Nat) : List (Nat × Nat) :=
  match (d.str n).last with
  | [] => []
  | l => [(2, dPort l)]

/-- The objects of Table 10.1 that a register of a commit changes. -/
def Dev.objectsOf (d : Dev) (off : Nat) : List (Nat × Nat) :=
  if off < 0x30000 then []
  else if off < 0x30100 then []
  else if off < 0x30400 then [(9, (off - 0x30100) / 0x20)]
  else if off < 0x30404 then [(9, 24)]
  else if off < 0x40000 then [(9, 25)]
  else if off < 0x200400 then []
  else if off < 0x201000 then [(3, (off - 0x200400) / 0x20)]
  else if off < 0x300000 then d.streamPort ((off - 0x201000) / 0x40)
  else if off < 0x400000 then [(7, (off - 0x300000) / 0x100)]
  else if off < 0x500000 then [(6, (off - 0x400000) / 0x40)]
  else if off < 0x501000 then [(4, (off - 0x500000) / 0x40)]
  else if off < 0x600000 then [(5, (off - 0x501000) / 0x40)]
  else [(8, 0)]

/-- Objects without an owner become the committing port's; a memory-job ring becomes the holder of SEM0's (R260). -/
def Dev.ownFirst (d : Dev) (p : Port) (dirty : Tbl Word) : Dev :=
  dirty.foldl (fun d e => (d.objectsOf e.1).foldl (fun d o =>
    let q := if o.1 = 7 then (d.sem 0).holder.getD p else p
    if (d.owner o.1 o.2).isNone then d.setOwner o.1 o.2 q else d) d) d

/-! ### The instant (R28) -/

/-- The instances of an array of registers that a dirty set touches. -/
def touched (dirty : Tbl Word) (base size count : Nat) : List Nat :=
  (List.range count).filter (fun n => dirty.any (fun (e : Nat × Word) => decide (base + n * size ≤ e.1 ∧ e.1 < base + (n + 1) * size)))

/-- PPS_OUT and SYNC_OUT after a commit: the next whole second is the first that an output just enabled marks, and one that has
been disabled ends its pulse or its message, which a later commit does not bring back. -/
def Dev.ppsCommit (d old : Dev) : Dev :=
  let d := if d.ppsEn then d else d.updCps (fun c => { c with ppsOff := none })
  let d := if d.syncEn then d else d.updCps (fun c => { c with syncMsg := none })
  let d := if d.ppsEn && !old.ppsEn then d.updCps (fun c => { c with ppsNext := d.time.toNat / 1000000000 + 1 }) else d
  if d.syncEn && !old.syncEn then
    d.updCps (fun c => { c with syncDue := false })
  else d

/-- What the blocks do at the commit instant with the registers that have changed; `old`: the device before it. -/
def Dev.commitBlocks (d old : Dev) (dirty : Tbl Word) (images : Tbl (List Byte)) : Dev :=
  let d := (touched dirty (Reg.CAM_CSIi_CFG 0) 0x40 12).foldl (fun d i => d.csiCommit i) d
  let d := (touched dirty (Reg.CAM_STRn_CTRL 0) 0x40 32).foldl (fun d n => d.streamCommit n (Tbl.find? images (Reg.CAM_STRn_DESC_LO n))) d
  let d := (touched dirty (Reg.ISPm_STATUS 0) 0x100 4).foldl (fun d m => d.mjobCommit m) d
  let d := (touched dirty (Reg.TAU_BSTRn_CTRL 0) 0x40 64).foldl (fun d n => d.bstrCommit n (Tbl.find? images (Reg.TAU_BSTRn_DESC_LO n))) d
  let d := (touched dirty (Reg.VID_DCTXn_CTRL 0) 0x40 64).foldl (fun d n => d.dctxCommit n (Tbl.find? images (Reg.VID_DCTXn_DESC_LO n))) d
  let d := (touched dirty (Reg.VID_ECTXn_CTRL 0) 0x40 16).foldl (fun d n => d.ectxCommit n (Tbl.find? images (Reg.VID_ECTXn_DESC_LO n))) d
  let d := (touched dirty (Reg.CPS_FSYNCn_CTRL 0) 0x20 24).foldl (fun d n => d.fsyncCommit n (dirty.any (fun (e : Nat × Word) =>
    e.1 = Reg.CPS_FSYNCn_START_LO n || e.1 = Reg.CPS_FSYNCn_START_HI n))) d
  let d := if d.fld Reg.CPS_CTRL Fld.CPS_CTRL_SOURCE = old.fld Reg.CPS_CTRL Fld.CPS_CTRL_SOURCE then d else d.sourceChanged
  let d := d.ppsCommit old
  let d := match Tbl.find? images Reg.FAB_ROUTE_LO with
    | some l => d.updFab (fun x => { x with route := l })
    | none => d
  let d := if d.reg Reg.FAB_CFG = old.reg Reg.FAB_CFG then d else d.fabCfgCommit (old.reg Reg.FAB_CFG)
  let d := (touched dirty (Reg.FAB_SRINGr_CTRL 0) 0x20 16).foldl (fun d r => d.ringCommit r
    (dirty.any (fun (e : Nat × Word) => decide (e.1 = Reg.FAB_SRINGr_CTRL r)))) d
  let d : Dev := if d.reg Reg.PM_MODE = old.reg Reg.PM_MODE then d else d.rephase
  let d : Dev := if d.coreRail = old.coreRail then d else d.updPm (fun p => { p with mv := none })
  d.layerCommit.restep

/-- The commit takes effect. -/
def Dev.applyCommit (d : Dev) (c : Pending) : Dev :=
  let d1 := { d.withRegs c.dirty with commit := none }
  let d2 := (d1.commitBlocks d c.dirty c.images).ownFirst c.port c.dirty
  let d3 := [Port.a, Port.b].foldl (fun d p =>
    let d := (d.setRegP p Reg.GLB_APPLIED_TIME_LO (d.time.setWidth 32)).setRegP p Reg.GLB_APPLIED_TIME_HI ((d.time >>> 32).setWidth 32)
    d.setRegP p Reg.GLB_COMMIT_SEQ (d.regP p Reg.GLB_COMMIT_SEQ + 1)) d2
  (d3.commitCode c.port ccOK).stir false

/-- The pending commit's moment has come; `frame`: the camera port that has a frame start at this instant, if any. -/
def Pending.due (c : Pending) (time : Dword) (frame : Option (Fin 24)) : Bool :=
  match c.mode with
  | .immediate => true
  | .atTime => decide (c.time.toNat ≤ time.toNat)
  | .atFrame => frame.any (fun x => decide (x.val = c.cam))

/-- COMMIT_TAKES_EFFECT at a TCLK edge. -/
def execCommitTakesEffect (frame : Option (Fin 24)) (s : State) := act s (fun d =>
  match d.commit with
  | some c => if c.due d.time frame then d.applyCommit c else d
  | none => d)

end Sys2Proof.Machine
end

