-- ==== Sys2Proof/Machine/Read.lean ====
section
/-! DEFINITION. What a register reads as: the stored word, or what the table derives from the state (chapter 17 and the
register tables of every chapter). Nothing here has a side effect. -/

namespace Sys2Proof.Machine

/-! ### Pairs (R447, R448) and windows (R34) -/

/-- RO and RC pairs: offset of the _LO half, stride, instances. -/
def readPairs : List (Nat × Nat × Nat) :=
  [(Reg.GLB_UID_LO, 0, 1), (Reg.GLB_APPLIED_TIME_LO, 0, 1), (Reg.GLB_SNAP_TIME_LO, 0, 1),
   (Reg.CCn_QSTAT_COUNT_LO 0, 0x10000, 8), (Reg.CCn_QSTAT_CLIP_LO 0, 0x10000, 8), (Reg.CCn_HALT_AUX_LO 0, 0x10000, 8),
   (Reg.CCn_HALT_RETIRED_LO 0, 0x10000, 8), (Reg.CCn_RETIRED_LO 0, 0x10000, 8), (Reg.CCn_DE_FAULT_ADDR_LO 0, 0x10000, 8),
   (Reg.MC_RD_BYTES_LO, 0, 1), (Reg.MC_WR_BYTES_LO, 0, 1), (Reg.ISPm_PIXELS_LO 0, 0x100, 4), (Reg.VID_ENGe_PIXELS_LO 0, 0x10, 3),
   (Reg.TAU_PIXELS_LO, 0, 1), (Reg.SEM_HELD_A_LO, 0, 1), (Reg.SEM_HELD_B_LO, 0, 1), (Reg.SEM_LAST_LO, 0, 1),
   (Reg.PM_WARN_TIME_LO, 0, 1), (Reg.PM_SUPPLY_TIME_LO, 0, 1), (Reg.CPS_TIME_LO, 0, 1), (Reg.CPS_EVTe_STAMP_LO 0, 0x10, 9),
   (Reg.FAB_ROOT_UID_LO, 0, 1)]

/-- RW and WO pairs. -/
def writePairs : List (Nat × Nat × Nat) :=
  [(Reg.GLB_APPLY_TIME_LO, 0, 1), (Reg.CCn_BISECT_COUNT_LO 0, 0x10000, 8), (Reg.CCn_TRAIL_BASE_LO 0, 0x10000, 8),
   (Reg.HPx_WIN_BASE_LO 0, 0x10000, 2), (Reg.HPx_ASQ_BASE_LO 0, 0x10000, 2), (Reg.HPx_ACQ_BASE_LO 0, 0x10000, 2),
   (Reg.FW_CAL_ADDR_LO, 0, 1), (Reg.SEC_DBG_RESP_LO, 0, 1), (Reg.CPS_ADJ_LO, 0, 1)]

/-- The offset is an instance of an array of registers. -/
def isInst (x : Nat × Nat × Nat) (off : Nat) : Bool :=
  decide (x.1 ≤ off) &&
  (let k := off - x.1
   if x.2.1 = 0 then decide (k = 0) else decide (k % x.2.1 = 0 ∧ k / x.2.1 < x.2.2))

/-- The offset is the _LO half, the _HI half, of a pair of the list. -/
def isLo (l : List (Nat × Nat × Nat)) (off : Nat) : Bool := l.any (fun x => isInst x off)
def isHi (l : List (Nat × Nat × Nat)) (off : Nat) : Bool := decide (4 ≤ off) && l.any (fun x => isInst x (off - 4))

/-- The selector register of a windowed register (Table 1.7, and the registers that MC_BWR_CTX_SEL addresses). -/
def selReg (off : Nat) : Option Nat :=
  if Reg.QM_Q_STATE ≤ off ∧ off ≤ Reg.QM_Q_RUNNING then some Reg.QM_Q_SEL
  else if off = Reg.QM_OWN then some Reg.QM_OWN_SEL
  else if off = Reg.QM_FLAG_WORD then some Reg.QM_FLAG_WSEL
  else if off = Reg.PM_PHASE_DATA then some Reg.PM_PHASE_SEL
  else if Reg.STC_FTEST_RES ≤ off ∧ off ≤ Reg.STC_FTEST_TEMP then some Reg.STC_FTEST_SEL
  else if off = Reg.STC_FLOG_RDATA then some Reg.STC_FLOG_RADDR
  else if Reg.MC_BWR_CTX_RATE ≤ off ∧ off ≤ Reg.MC_BWR_CTX_LEVEL then some Reg.MC_BWR_CTX_SEL
  else if Reg.CCn_TRAIL_RDATA 0 ≤ off ∧ (off - Reg.CCn_TRAIL_RDATA 0) % 0x10000 = 0 then some (off - 4)
  else none

/-- A selector names an index of the window: no bit outside the selector's fields (DEDUCED), and an index that Table 1.7
lists. -/
def selInWindow (sel : Nat) (v : Word) : Bool :=
  let fits := match regRow? sel with
    | some r => decide (v &&& ~~~(r.accMask .rw) = 0)
    | none => false
  fits &&
  (if sel = Reg.QM_OWN_SEL then decide (Fld.QM_OWN_SEL_INDEX.get v < classLimit (Fld.QM_OWN_SEL_CLASS.get v))
   else if sel = Reg.STC_FTEST_SEL then decide (Fld.STC_FTEST_SEL_UNIT.get v < 48)
   else true)

/-! ### The registers of each block that read what other state gives -/

/-- The halves of a 64-bit value. -/
def loHalf (n : Nat) : Word := BitVec.ofNat 32 n
def hiHalf (n : Nat) : Word := BitVec.ofNat 32 (n / pow2 32)

/-- GLB_COMMIT_STATUS of a port (Table 1.8). -/
def Dev.commitStatus (d : Dev) (p : Port) : Word :=
  let x := d.port p
  let own := match d.commit with
    | some c => decide (c.port = p)
    | none => false
  BitVec.ofNat 32 (d.fldP p Reg.GLB_COMMIT_STATUS Fld.GLB_COMMIT_STATUS_CODE + b2n (!x.checking.isEmpty) * pow2 8 +
    b2n d.commit.isSome * pow2 9 + b2n own * pow2 10 + b2n (!x.stage.isEmpty) * pow2 11)

/-- GLB_STAGE_DATA: the staged value, else the value in force; free where OFFSET names no RWS register. -/
def Dev.stageData (d : Dev) (p : Port) : Word :=
  let off := (d.regP p Reg.GLB_STAGE_ADDR).toNat
  if isRws off then (Tbl.find? (d.port p).stage off).getD (d.reg off) else Config.freeWord d.ctr 701

/-- Bits n of a register over semaphores lo to lo + 31. -/
def Dev.semBits (d : Dev) (lo : Nat) (f : Sem → Bool) : Word :=
  BitVec.ofNat 32 ((List.range 32).foldl (fun a i => a + b2n (f (d.sem (lo + i))) * pow2 i) 0)

def Dev.readGlb (d : Dev) (p : Port) (off : Nat) (w : Word) : Word :=
  if off = Reg.GLB_STAGE_ADDR then w ||| BitVec.ofNat 32 (b2n (Tbl.find? (d.port p).stage w.toNat).isSome * pow2 31)
  else if off = Reg.GLB_STAGE_DATA then d.stageData p
  else if off = Reg.GLB_COMMIT_STATUS then d.commitStatus p
  else if off = Reg.GLB_SNAP_DATA then Config.freeWord d.ctr 702
  else w

def Dev.readSem (d : Dev) (p : Port) (off : Nat) : Word :=
  if off < 0x10100 then d.semWord p ((off - Reg.SEMn 0) / 4)
  else if off = Reg.SEM_HELD_A_LO then d.semBits 0 (fun x => decide (x.holder = some .a))
  else if off = Reg.SEM_HELD_A_HI then d.semBits 32 (fun x => decide (x.holder = some .a))
  else if off = Reg.SEM_HELD_B_LO then d.semBits 0 (fun x => decide (x.holder = some .b))
  else if off = Reg.SEM_HELD_B_HI then d.semBits 32 (fun x => decide (x.holder = some .b))
  else if off = Reg.SEM_LAST_LO then d.semBits 0 (fun x => x.lastB)
  else d.semBits 32 (fun x => x.lastB)

def Dev.readPm (d : Dev) (off : Nat) (sel w : Word) : Word :=
  if off = Reg.PM_STATUS then d.pmStatus
  else if off = Reg.PM_SUPPLY_LOG then d.keep.supplyLog
  else if off = Reg.PM_SUPPLY_TIME_LO then loHalf d.keep.supplyTime.toNat
  else if off = Reg.PM_SUPPLY_TIME_HI then hiHalf d.keep.supplyTime.toNat
  else if off = Reg.PM_PHASE_DATA then d.phaseData sel
  else w

/-- CPS_EVTe_INFO as a snapshot holds it: the oldest stamp, EMPTY and DEPTH as they stand (R34). -/
def Dev.oldestInfo (d : Dev) (e : Nat) : Word :=
  let l := Tbl.getD d.cps.fifo e []
  (match l with
   | [] => emptyInfo
   | x :: _ => stampInfo x) |||
  BitVec.ofNat 32 (l.length * pow2 5 + d.fld (Reg.CPS_EVTe_INFO e) Fld.CPS_EVTe_INFO_OVF * pow2 16)

def Dev.oldestTime (d : Dev) (e : Nat) : Nat :=
  match Tbl.getD d.cps.fifo e [] with
  | [] => 0
  | x :: _ => x.time.toNat

def Dev.readCps (d : Dev) (off : Nat) (w : Word) : Word :=
  let e := (off - Reg.CPS_EVTe_CTRL 0) / 0x10
  if off = Reg.CPS_TIME_LO then loHalf d.time.toNat
  else if off = Reg.CPS_TIME_HI then hiHalf d.time.toNat
  else if off = Reg.CPS_STATUS then d.cpsStatus
  else if off = Reg.CPS_ADJ_REMAIN then d.adjRemain
  else if off < Reg.CPS_EVTe_CTRL 0 then w
  else if off = Reg.CPS_EVTe_CTRL 8 then 1
  else if off = Reg.CPS_EVTe_STAMP_LO e then loHalf (d.oldestTime e)
  else if off = Reg.CPS_EVTe_STAMP_HI e then hiHalf (d.oldestTime e)
  else if off = Reg.CPS_EVTe_INFO e then d.oldestInfo e
  else w

/-- STC_HEALTH_CCn (Table 11.5). -/
def Dev.healthWord (d : Dev) (n : Nat) : Word :=
  BitVec.ofNat 32 ((List.range 6).foldl (fun a k => a + healthCode (d.unitSt (6 * n + k)) * pow2 (2 * k)) 0 +
    d.hostOf n * pow2 12 + d.factor n * pow2 16)

/-- Units in a health state. -/
def Dev.unitsIn (d : Dev) (h : Health) : Nat := ((List.range 48).filter (fun u => d.unitSt u = h)).length

/-- STC_FTEST_RES, STC_FTEST_VF and STC_FTEST_TEMP of a unit. -/
def Dev.ftestWord (d : Dev) (off u : Nat) : Word :=
  if 48 ≤ u then 0
  else
    let t := (d.unit u).test
    if off = Reg.STC_FTEST_RES then
      let age := match t.at_ with
        | some x => Nat.min 0xFFFF ((d.ticks - x) / 100000000)
        | none => 0xFFFF
      BitVec.ofNat 32 (t.result + b2n t.full * 4 + age * pow2 16)
    else if off = Reg.STC_FTEST_VF then BitVec.ofNat 32 (t.mv + t.mhz * pow2 16)
    else BitVec.ofNat 32 (t.temp % 65536)

def Dev.readStc (d : Dev) (off : Nat) (sel w : Word) : Word :=
  if off = Reg.STC_RESET_CAUSE then d.keep.cause
  else if Reg.STC_HEALTH_CCn 0 ≤ off ∧ off < Reg.STC_HEALTH_CCn 8 then d.healthWord ((off - Reg.STC_HEALTH_CCn 0) / 4)
  else if off = Reg.STC_HEALTH_SUM then w ||| BitVec.ofNat 32 (d.unitsIn .observed + d.unitsIn .fenced * pow2 6)
  else if off = Reg.STC_FLOG_RDATA then
    (match Tbl.find? d.flog (Fld.STC_FLOG_RADDR_INDEX.get sel) with
     | some r => (r >>> (32 * Fld.STC_FLOG_RADDR_WORD.get sel)).setWidth 32
     | none => Config.freeWord d.ctr 703)
  else if Reg.STC_FTEST_RES ≤ off ∧ off ≤ Reg.STC_FTEST_TEMP then d.ftestWord off (Fld.STC_FTEST_SEL_UNIT.get sel)
  else if off = Reg.STC_PACK_VERSION then BitVec.ofNat 32 d.packVersion
  else w

def Dev.readSec (d : Dev) (off : Nat) (w : Word) : Word :=
  if off = Reg.SEC_STATUS then
    w ||| BitVec.ofNat 32 ((List.range 4).foldl (fun a k => a + b2n (Config.slotRevoked k) * pow2 (4 + k)) 0)
  else if off = Reg.SEC_SLOT_USE then
    BitVec.ofNat 32 ((List.range 4).foldl (fun a k => a + (Config.slotUse k).toNat * pow2 (3 * k)) 0)
  else if off = Reg.SEC_RNG_DATA then Config.freeWord d.ctr 99
  else w

def Dev.readFw (d : Dev) (off : Nat) (w : Word) : Word :=
  if off = Reg.FW_STATUS then w ||| BitVec.ofNat 32 (b2n d.fw.layer.isSome * pow2 7 + b2n d.fw.calPending.isSome * pow2 8)
  else if off = Reg.FW_SVN then w ||| BitVec.ofNat 32 ((d.otpSvn % 128) * pow2 8)
  else w

/-- HPx_HB_AGE; unstated before the first beat since reset. -/
def Dev.hbAge (d : Dev) (x : PortSt) : Word :=
  if x.beat = 0 ∧ d.ticks ≠ 0 then Config.freeWord d.ctr 704 else BitVec.ofNat 32 (sat32 ((d.ticks - x.beat) / 100))

def Dev.readHp (d : Dev) (x : Port) (off : Nat) (w : Word) : Word :=
  if off = Reg.HPx_STATUS x.idx then w ||| BitVec.ofNat 32 (d.port x).state
  else if off = Reg.HPx_HB_AGE x.idx then d.hbAge (d.port x)
  else w

/-- The code of a queue's state (Table 10.12); an admin queue reads 0 until its port attaches. -/
def Queue.stateCode (x : Queue) : Nat :=
  match x.state with
    | .free => 0
    | .active => 1
    | .stopped => 2
    | .draining => 3
    | .parked => 4

/-- QM_STATUS. -/
def Dev.qmStatus (d : Dev) : Word :=
  let n := (d.queues.filter (fun (e : Nat × Queue) => !isAdmin e.1 && decide (e.2.state ≠ .free))).length
  BitVec.ofNat 32 (2 + n + d.ctxs.length * pow2 17)

def Dev.readQueue (d : Dev) (off q : Nat) : Word :=
  let x := d.queue q
  if off = Reg.QM_Q_STATE then
    BitVec.ofNat 32 (x.stateCode + b2n x.persist * 8 + b2n x.deadlocked * 16 + x.vector * pow2 16)
  else if off = Reg.QM_Q_SQ_CONS then x.sqCons
  else if off = Reg.QM_Q_SQ_TAIL then x.sqTail
  else if off = Reg.QM_Q_CQ_PROD then x.cqProd
  else if off = Reg.QM_Q_CQ_HEAD then x.cqHead
  else BitVec.ofNat 32 x.running

def Dev.readQm (d : Dev) (off : Nat) (sel w : Word) : Word :=
  if off = Reg.QM_STATUS then d.qmStatus
  else if off = Reg.QM_FLAG_WORD then Tbl.getD d.flags (Fld.QM_FLAG_WSEL_WORD.get sel) 0
  else if off = Reg.QM_OWN then
    (match d.owner (Fld.QM_OWN_SEL_CLASS.get sel) (Fld.QM_OWN_SEL_INDEX.get sel) with
     | none => 0
     | some .a => 1
     | some .b => 2)
  else if Reg.QM_Q_STATE ≤ off then d.readQueue off (Fld.QM_Q_SEL_QUEUE.get sel)
  else w

/-- Streams bound to a pipe. -/
def Dev.pipeStreams (d : Dev) (m : Nat) : Nat :=
  ((List.range 32).filter (fun n =>
    let s := d.str n
    s.on && decide (dDest s.desc ≠ 0 ∧ dPipe s.desc = m))).length

def Dev.readMedia (d : Dev) (off : Nat) (w : Word) : Word :=
  if off < 0x300000 then
    let n := (off - Reg.CAM_STRn_CTRL 0) / 0x40
    if off = Reg.CAM_STRn_STATUS n then w ||| BitVec.ofNat 32 (d.strState n) else w
  else if off < 0x400000 then
    let m := (off - Reg.ISPm_STATUS 0) / 0x100
    if off = Reg.ISPm_STATUS m then BitVec.ofNat 32 (d.pipeStreams m + b2n (Tbl.find? d.med.mjob m).isSome * 16) else w
  else if off < 0x500000 then
    let n := (off - Reg.TAU_BSTRn_CTRL 0) / 0x40
    if off = Reg.TAU_STATUS then d.tauStatus else if off = Reg.TAU_BSTRn_STATUS n then d.bstrStatus n else w
  else if off < 0x501000 then
    let n := (off - Reg.VID_DCTXn_CTRL 0) / 0x40
    if off = Reg.VID_DCTXn_STATUS n then BitVec.ofNat 32 (d.dctxState n) else w
  else
    let n := (off - Reg.VID_ECTXn_CTRL 0) / 0x40
    if off = Reg.VID_ECTXn_STATUS n then BitVec.ofNat 32 (d.ectxState n) else w

def Dev.readMc (d : Dev) (off : Nat) (sel w : Word) : Word :=
  let t := 8 + Fld.MC_BWR_CTX_SEL_CONTEXT.get sel
  if off = Reg.MC_CFG then w ||| (if d.cap48 then 1 else 2)
  else if off = Reg.MC_BWR_CTX_RATE then BitVec.ofNat 32 (d.bRate t)
  else if off = Reg.MC_BWR_CTX_BURST then BitVec.ofNat 32 (d.bBurst t)
  else if off = Reg.MC_BWR_CTX_LEVEL then BitVec.ofNat 32 (d.bLevel t / 100)
  else w

/-- CCn_STATUS (Table 4.9). -/
def Dev.coreStatus (d : Dev) (n : Nat) : Word :=
  let c := d.core n
  match d.jobOf n with
  | none => if c.halted then 2 else 0
  | some (l, j) =>
    let st := if c.halted then 2 else if j.inReplay || decide (j.state = .replaySetup) then 3 else 1
    BitVec.ofNat 32 (st + b2n (decide (l = n)) * 8 + j.members.length * 16 + d.logical n * pow2 8 + j.ctx * pow2 16)

/-- CCn_PC; unstated where no job runs and one has run. -/
def Dev.corePc (d : Dev) (n : Nat) : Word :=
  match d.jobOf n with
  | some (_, j) => BitVec.ofNat 32 (pcOf j.tagged (d.oldest n).1)
  | none => if (d.core n).retired = 0 then 0 else Config.freeWord d.ctr 705

/-- A FEED descriptor that has not delivered all its bytes and finds its lane full. -/
def Core.feedWaits (c : Core) : Bool :=
  c.de.toMove.any (fun y => c.feedStuck y)

/-- CCn_DE_STATUS. A transfer is made whole in one step, so that none is in flight between two. -/
def Dev.deStatus (d : Dev) (n : Nat) (w : Word) : Word :=
  let c := d.core n
  w ||| BitVec.ofNat 32 (c.de.lists.length * pow2 10 + b2n c.feedWaits * pow2 18 + b2n c.held.isSome * pow2 19)

def Dev.readCore (d : Dev) (n off : Nat) (sel w : Word) : Word :=
  if off = Reg.CCn_STATUS n then d.coreStatus n
  else if off = Reg.CCn_PC n then d.corePc n
  else if off = Reg.CCn_RETIRED_LO n then loHalf (d.core n).retired.toNat
  else if off = Reg.CCn_RETIRED_HI n then hiHalf (d.core n).retired.toNat
  else if off = Reg.CCn_TRAIL_RDATA n then
    (match Tbl.find? (d.core n).trail (Fld.CCn_TRAIL_RADDR_INDEX.get sel) with
     | some r => (r >>> (32 * Fld.CCn_TRAIL_RADDR_WORD.get sel)).setWidth 32
     | none => Config.freeWord d.ctr 707)
  else if off = Reg.CCn_DE_STATUS n then d.deStatus n w
  else if off = Reg.CCn_BWR_LEVEL n then BitVec.ofNat 32 ((d.core n).level / 100)
  else w

/-! ### Reads -/

/-- The bits of a register that a read shows: write-only and reserved bits read 0 (R6, R8). -/
def RegRow.readMask (r : RegRow) : Word := r.accMask .rw ||| r.accMask .ro ||| r.accMask .w1c ||| r.accMask .rc ||| r.accMask .rws

/-- The value of a register as it stands, each half of a pair included, for a port and a selector; 0 at an unassigned
offset and in the doorbell region (R444, R445). -/
def Dev.standing (d : Dev) (p : Port) (off : Nat) (sel : Word) : Word :=
  match regRow? off with
  | none => 0
  | some r =>
    let w := d.regP p off
    let x :=
      if off < 0x10000 then d.readGlb p off w
      else if off < 0x20000 then d.readSem p off
      else if off < 0x30000 then d.readPm off sel w
      else if off < 0x40000 then d.readCps off w
      else if off < 0x50000 then d.readStc off sel w
      else if off < 0x60000 then d.readSec off w
      else if off < 0x70000 then d.readFw off w
      else if off < 0x90000 then d.readHp .a off w
      else if off < 0x100000 then d.readHp .b off w
      else if off < 0x200000 then d.readQm off sel w
      else if off < 0x600000 then d.readMedia off w
      else if off < 0x700000 then w
      else if off < 0x800000 then d.readMc off sel w
      else d.readCore ((off - 0x800000) / 0x10000) off sel w
    x &&& r.readMask

/-- What a port's live selector of a windowed register holds. -/
def Dev.selector (d : Dev) (p : Port) (off : Nat) : Word :=
  match selReg off with
  | some s => d.regP p s
  | none => 0

/-- What a port reads at an offset, the effects of the read apart: the _HI half of an RO or RC pair is the port's latch
(R447), CPS_EVTe_INFO what its last pop latched (R379). -/
def Dev.readReg (d : Dev) (p : Port) (off : Nat) : Word :=
  let e := (off - Reg.CPS_EVTe_CTRL 0) / 0x10
  if isHi readPairs off then d.latched p (off - 4)
  else if Reg.CPS_EVTe_CTRL 0 ≤ off ∧ e < 9 ∧ off = Reg.CPS_EVTe_INFO e then d.evtInfo p e
  else d.standing p off (d.selector p off)

end Sys2Proof.Machine
end

