-- ==== Sys2Proof/Machine/Snapshot.lean ====
section
/-! DEFINITION. The status snapshot (R32 to R34). -/

namespace Sys2Proof.Machine

/-- The snapshot set: every status register but those of SEM, GLB_STAGE_DATA and the GLB_SNAP registers. -/
def inSnapSet (off : Nat) : Bool :=
  (match regRow? off with
   | some r => r.isStatus
   | none => false) &&
  !(decide (0x10000 ≤ off ∧ off < 0x20000)) && decide (off ≠ Reg.GLB_STAGE_DATA) &&
  !(decide (Reg.GLB_SNAP_CMD ≤ off ∧ off ≤ Reg.GLB_SNAP_SEL))

/-- A snapshot holds the register at the offset, and the index that the selector value names. -/
def snapHolds (off : Nat) (sel : Word) : Bool :=
  inSnapSet off &&
  (match selReg off with
   | some s => selInWindow s sel
   | none => true)

/-- GLB_SNAP_STATUS CODE (Table 1.6). -/
def snNONE : Nat := 0x20
def snTAKING : Nat := 0x21
def snREADY : Nat := 0x22
def snMISS : Nat := 0x23

def Dev.snapCode (d : Dev) (p : Port) (k : Nat) : Dev := d.setFldP p Reg.GLB_SNAP_STATUS Fld.GLB_SNAP_STATUS_CODE k

/-- TAKE: the whole set as it stands at the capture edge; without effect while a capture of the port is in progress. -/
def State.take (s : State) (p : Port) : State :=
  if (s.snap p).taking.isSome then s
  else { s.setSnap p { s.snap p with taking := some s.dev } with dev := s.dev.snapCode p snTAKING }

def execTake (p : Port) (s : State) := actAll s (fun s => s.take p)

/-- SNAP_READY: the capture ends; its latch replaces the port's previous snapshot. DESIGN CHOICE: GLB_SNAP_TIME goes with the
latch, and shows the previous capture edge until then. -/
def State.snapReady (s : State) (p : Port) : State :=
  match (s.snap p).taking with
  | none => s
  | some c =>
    let d := (s.dev.setRegP p Reg.GLB_SNAP_TIME_LO (loHalf c.time.toNat)).setRegP p Reg.GLB_SNAP_TIME_HI (hiHalf c.time.toNat)
    { s.setSnap p { ready := some c, taking := none } with dev := d.snapCode p snREADY }

def execSnapReady (p : Port) (s : State) := actAll s (fun s => s.snapReady p)

/-- The value GLB_SNAP_DATA reads: latched at GLB_SNAP_ADDR and GLB_SNAP_SEL, 0 outside the set or the window. -/
def State.snapData (s : State) (p : Port) : Word :=
  let off := (s.dev.regP p Reg.GLB_SNAP_ADDR).toNat
  let sel := s.dev.regP p Reg.GLB_SNAP_SEL
  if !snapHolds off sel then 0
  else match (s.snap p).ready with
    | some c => c.standing p off sel
    | none => Config.freeWord s.dev.ctr 708

/-- The code after a read: SNAP_MISS or SNAP_READY of the complete snapshot; unchanged with none, or while one is taken. -/
def State.snapReadCode (s : State) (p : Port) : Dev :=
  let x := s.snap p
  let hit := snapHolds (s.dev.regP p Reg.GLB_SNAP_ADDR).toNat (s.dev.regP p Reg.GLB_SNAP_SEL)
  if x.taking.isSome || x.ready.isNone then s.dev
  else s.dev.snapCode p (if hit then snREADY else snMISS)

/-- SNAP_DATA_READ. -/
def execSnapDataRead (p : Port) (s : State) := actAll s (fun s =>
  let d := s.snapReadCode p
  { s with dev := { d with out := .regData p (s.snapData p) :: d.out } })

end Sys2Proof.Machine
end

