-- ==== Sys2Proof/Machine/Access.lean ====
section
/-! DEFINITION. Host accesses through BAR0 and BAR2: reads and writes that have no row of their own, register pairs, the memory
window (chapter 17). -/

namespace Sys2Proof.Machine

def Dev.answer (d : Dev) (p : Port) (v : Word) : Dev := { d with out := .regData p v :: d.out }

/-- BAR0_BAD_ACCESS. -/
def execBar0BadAccess (p : Port) (s : State) := act s (fun d => { d with out := .unsupported p :: d.out })

/-! ### Reads with a side effect (R447, R450) -/

/-- The other port's block of HPx registers: its registers read, but nothing of it is changed (R313). -/
def foreignBlock (p : Port) (off : Nat) : Bool :=
  match p with
  | .a => decide (0x90000 ≤ off ∧ off < 0xA0000)
  | .b => decide (0x80000 ≤ off ∧ off < 0x90000)

/-- RC_READ: the value, and the RC bits clear. -/
def execRcRead (p : Port) (off : BitVec 25) (s : State) := act s (fun d =>
  let o := off.toNat
  match regRow? o with
  | none => d
  | some r =>
    if !r.has .rc then d
    else
      let v := d.readReg p o
      (if foreignBlock p o then d else d.setRegP p o (d.regP p o &&& ~~~(r.accMask .rc))).answer p v)

/-- PAIR_LO_READ: bits 31 to 0, and the port's latch takes the others; CPS_EVTe_STAMP has a row of its own. -/
def execPairLoRead (p : Port) (off : BitVec 25) (s : State) := act s (fun d =>
  let o := off.toNat
  if !isLo readPairs o || isInst (Reg.CPS_EVTe_STAMP_LO 0, 0x10, 9) o then d
  else
    let hi := d.standing p (o + 4) 0
    (d.updPort p (fun x => { x with latch := Tbl.set x.latch o hi })).answer p (d.standing p o 0))

/-! ### Writes (R8, R287, R288) -/

/-- Where a refused write of a register is marked: WR_REJECT of the defining block. -/
def rejectBit (off : Nat) : Option (Nat × Fld) :=
  if 0x20000 ≤ off ∧ off < 0x30000 then some (Reg.PM_EVENT, Fld.PM_EVENT_WR_REJECT)
  else if 0x30000 ≤ off ∧ off < 0x40000 then some (Reg.CPS_EVENT, Fld.CPS_EVENT_WR_REJECT)
  else if 0x40800 ≤ off ∧ off < 0x50000 then some (Reg.STC_HEALTH_SUM, Fld.STC_HEALTH_SUM_WR_REJECT)
  else if 0x80000 ≤ off ∧ off < 0xA0000 then some (Reg.HPx_STATUS ((off - 0x80000) / 0x10000), Fld.HPx_STATUS_WR_REJECT)
  else if 0x200400 ≤ off ∧ off < 0x201000 then
    some (Reg.CAM_SCBj_XSTATUS ((off - 0x200400) / 0x20), Fld.CAM_SCBj_XSTATUS_WR_REJECT)
  else if 0x700000 ≤ off ∧ off < 0x800000 then some (Reg.MC_BWR_STATUS, Fld.MC_BWR_STATUS_WR_REJECT)
  else if 0x800000 ≤ off ∧ off < 0x880000 then
    some (Reg.CCn_DBG_STATUS ((off - 0x800000) / 0x10000), Fld.CCn_DBG_STATUS_WR_REJECT)
  else none

def Dev.reject (d : Dev) (off : Nat) : Dev :=
  match rejectBit off with
  | some x => d.raise x.1 x.2
  | none => d

/-- A debug or Trail register of a core (R135): 0x200 to 0x23F and 0x300 to 0x3FF of the core's block. -/
def isDebugReg (off : Nat) : Bool :=
  decide (0x800000 ≤ off) &&
  (let x := (off - 0x800000) % 0x10000
   decide (0x200 ≤ x ∧ x < 0x240 ∨ 0x300 ≤ x ∧ x < 0x400))

/-- A register whose writes R288 or R135 ties to the owner of an object. -/
def ownerChecked (off : Nat) : Bool := isDebugReg off || isInst (Reg.CAM_SCBj_XDATA 0, 0x20, 12) off

/-- The context that a write of a debug register must own: the one named, or the one that a write of CCn_DBG_CONTEXT names. -/
def Dev.debugCtx (d : Dev) (n off : Nat) (v : Word) : Nat :=
  Fld.CCn_DBG_CONTEXT_CONTEXT.get (if off = Reg.CCn_DBG_CONTEXT n then v else d.reg (Reg.CCn_DBG_CONTEXT n))

/-- Writes of the RW fields of a register are accepted from this port, with this value. -/
def Dev.writeOk (d : Dev) (p : Port) (off : Nat) (v : Word) : Bool :=
  let n := (off - 0x800000) / 0x10000
  let ring (lo : Nat → Nat) := decide (off = lo p.idx ∨ off = lo p.idx + 4)
  if isDebugReg off then decide (d.owner 1 (d.debugCtx n off v) = some p)
  else if isInst (Reg.CCn_STALL_LIMIT 0, 0x10000, 8) off then d.holdsSem0 p
  else if off = Reg.MC_ARB then
    d.holdsSem0 p && decide (Fld.MC_ARB_SYS_WEIGHT.get v ≠ 0 ∧ Fld.MC_ARB_CORE_WEIGHT.get v ≠ 0)
  else if off = Reg.MC_BWR_CTX_SEL ∨ off = Reg.CPS_TRIM ∨ off = Reg.STC_FTEST_CTRL ∨ off = Reg.SEC_DBG_RESP_LO ∨
      off = Reg.SEC_DBG_RESP_HI ∨ isInst (Reg.CPS_EVTe_CTRL 0, 0x10, 9) off then d.holdsSem0 p
  else if off = Reg.PM_IDLE_CTRL then d.holdsSem0 p && decide (10 ≤ Fld.PM_IDLE_CTRL_DELAY.get v)
  else if off = Reg.HPx_HB_INTERVAL p.idx then
    decide (10 ≤ Fld.HPx_HB_INTERVAL_MS.get v ∧ Fld.HPx_HB_INTERVAL_MS.get v ≤ 1000)
  else if off = Reg.HPx_AQ_SIZE p.idx ∨ ring Reg.HPx_ASQ_BASE_LO ∨ ring Reg.HPx_ACQ_BASE_LO then !(d.port p).attached
  else if isInst (Reg.CAM_SCBj_XDATA 0, 0x20, 12) off then d.mayWrite p 3 ((off - Reg.CAM_SCBj_XDATA 0) / 0x20)
  else true

/-- An invalid size or base stops the Trail and sets WR_REJECT (Table 4.9). -/
def Dev.trailCheck (d : Dev) (n : Nat) (ok : Bool) : Dev :=
  if ok then d
  else (d.setFld (Reg.CCn_TRAIL_CTRL n) Fld.CCn_TRAIL_CTRL_EN 0).raise (Reg.CCn_DBG_STATUS n) Fld.CCn_DBG_STATUS_WR_REJECT

/-- The ring of a stream-mode Trail has a size in range and an aligned base. -/
def Dev.ringSizeOk (d : Dev) (n : Nat) : Bool :=
  (List.range 15).any (fun k => decide ((d.reg (Reg.CCn_TRAIL_SIZE n)).toNat = pow2 (16 + k)))

/-- EN of a Trail has been set: its count restarts, and a stream needs a ring (Table 4.9). -/
def Dev.trailStart (d : Dev) (n : Nat) : Dev :=
  let d := d.setReg (Reg.CCn_TRAIL_WPTR n) 0
  d.trailCheck n (decide (d.fld (Reg.CCn_TRAIL_CTRL n) Fld.CCn_TRAIL_CTRL_MODE = 0) || d.ringSizeOk n)

/-- ARM of core n's debug settings has been written 0 while a job of their context runs on it: they are in force up to the next
bundle boundary (Table 4.9); `old`: CCn_DBG_CONTEXT before. -/
def Dev.disarmed (d : Dev) (n : Nat) (old : Word) : Dev :=
  let x := Fld.CCn_DBG_CONTEXT_CONTEXT.get old
  match d.jobOf n with
  | some (_, j) => if j.ctx = x then d.updCore n (fun c => { c with disarm := some x }) else d
  | none => d

/-- What a write of a register does beside storing its value; `old`: the word before it. -/
def Dev.written (d : Dev) (off : Nat) (old : Word) : Dev :=
  let n := (off - 0x800000) / 0x10000
  if off < 0x800000 then
    if off = Reg.CPS_TRIM ∧ d.fld Reg.CPS_CTRL Fld.CPS_CTRL_SOURCE = 0 ∧ !d.held then d.setRate d.trim else d
  else if off = Reg.CCn_TRAIL_CTRL n then
    if Fld.CCn_TRAIL_CTRL_EN.get old = 0 ∧ d.fld off Fld.CCn_TRAIL_CTRL_EN = 1 then d.trailStart n else d
  else if off = Reg.CCn_DBG_CONTEXT n then
    if Fld.CCn_DBG_CONTEXT_ARM.get old = 1 ∧ d.fld off Fld.CCn_DBG_CONTEXT_ARM = 0 then d.disarmed n old else d
  else if off = Reg.CCn_TRAIL_RPTR n then d.trailFlush n ((d.core n).trailHeld.length + 1)
  else if off = Reg.CCn_TRAIL_SIZE n then
    d.trailCheck n (d.ringSizeOk n)
  else if off = Reg.CCn_TRAIL_BASE_HI n then d.trailCheck n (decide (d.trailBase n % 4096 = 0))
  else d

/-- A write command, not a value, or a bucket register: rows of their own. -/
def hasOwnRow (off : Nat) (r : RegRow) : Bool :=
  r.has .wo && !r.has .rw ||
  decide (0x10000 ≤ off ∧ off < 0x10100) || off = Reg.MC_BWR_CTX_RATE || off = Reg.MC_BWR_CTX_BURST ||
  isInst (Reg.CCn_BWR_RATE 0, 0x10000, 8) off || isInst (Reg.CCn_BWR_BURST 0, 0x10000, 8) off

/-- Replace the bits of a mask. -/
def mix (mask old new : Word) : Word := (old &&& ~~~mask) ||| (new &&& mask)

/-- A write of the _LO half of an RW or WO pair (R448). -/
def Dev.pairLoWrite (d : Dev) (p : Port) (off : Nat) (v : Word) : Dev :=
  if foreignBlock p off || (ownerChecked off && (d.port p).lost) then d
  else if !d.writeOk p off v then d.reject off
  else d.updPort p (fun x => { x with pairLo := Tbl.set x.pairLo off (v, true) })

/-- A write of the _HI half: both halves take effect (R448). -/
def Dev.pairHiWrite (d : Dev) (p : Port) (off : Nat) (v : Word) : Dev :=
  if foreignBlock p off || (ownerChecked off && (d.port p).lost) then d
  else if !d.writeOk p off v then d.reject off
  else
    let m (o : Nat) : Word := match regRow? o with
      | some r => r.accMask .rw ||| r.accMask .wo
      | none => 0
    let lo := match Tbl.find? (d.port p).pairLo (off - 4) with
      | some (x, true) => x &&& m (off - 4)
      | _ => d.regP p (off - 4)
    let d := d.updPort p (fun x => { x with pairLo := Tbl.set x.pairLo (off - 4) (lo, false) })
    ((d.setRegP p (off - 4) lo).setRegP p off (v &&& m off)).written off 0

/-- PAIR_LO_WRITE. -/
def execPairLoWrite (p : Port) (off : BitVec 25) (v : Word) (s : State) := act s (fun d =>
  if isLo writePairs off.toNat then d.pairLoWrite p off.toNat v else d)

/-- PAIR_HI_WRITE. -/
def execPairHiWrite (p : Port) (off : BitVec 25) (v : Word) (s : State) := act s (fun d =>
  if isHi writePairs off.toNat then d.pairHiWrite p off.toNat v else d)

/-- The W1C bits of a register that are written 1 clear. -/
def Dev.clearW1c (d : Dev) (p : Port) (off : Nat) (r : RegRow) (v : Word) : Dev :=
  if r.has .w1c then d.setRegP p off (d.regP p off &&& ~~~(v &&& r.accMask .w1c)) else d

/-- The RW bits of a register take the value written, where the write is accepted. -/
def Dev.writeRw (d : Dev) (p : Port) (off : Nat) (r : RegRow) (v : Word) : Dev :=
  if !r.has .rw || off = Reg.CPS_EVTe_CTRL 8 || (ownerChecked off && (d.port p).lost) then d
  else if !d.writeOk p off v then d.reject off
  else (d.setRegP p off (mix (r.accMask .rw) (d.regP p off) v)).written off (d.regP p off)

/-- A write of a register: ignored at an unassigned offset (R444), in the other port's block (R313) and where the command
has a row of its own; staged for an RWS register. A CPS_ADJ_CMD that commands nothing still needs SEM0 (R382). -/
def Dev.regWrite (d : Dev) (p : Port) (off : Nat) (v : Word) : Dev :=
  match regRow? off with
  | none => d
  | some r =>
    if r.has .rws then d.stageReg p off v
    else if isLo writePairs off then d.pairLoWrite p off v
    else if isHi writePairs off then d.pairHiWrite p off v
    else if off = Reg.CPS_ADJ_CMD ∧ !d.holdsSem0 p ∧ ¬(Fld.CPS_ADJ_CMD_CMD.get v = 1 ∨ Fld.CPS_ADJ_CMD_CMD.get v = 2) then d.reject off
    else if foreignBlock p off || hasOwnRow off r then d
    else (d.clearW1c p off r v).writeRw p off r v

/-- REGISTER_WRITE. -/
def execRegisterWrite (p : Port) (off : BitVec 25) (v : Word) (s : State) := act s (fun d => d.regWrite p off.toNat v)

/-! ### BAR2 (R446) -/

/-- The window's base. -/
def Dev.winBase (d : Dev) (p : Port) : Nat := d.reg64 (Reg.HPx_WIN_BASE_LO p.idx) (Reg.HPx_WIN_BASE_HI p.idx)

/-- A write into the load area is accepted in WAIT_IMAGE from the holder of SEM0 (R413). -/
def Dev.loadOk (d : Dev) (p : Port) (a : Nat) : Bool :=
  decide (loadArea ≤ a ∧ a < loadArea + 0x400000 ∧ d.fwState = 0) && d.holdsSem0 p

/-- A byte that an access may reach. -/
def Dev.barOk (d : Dev) (p : Port) (write : Bool) (a : Nat) : Bool :=
  decide (a < pow2 48) && (d.usable a || (write && d.loadOk p a))

/-- BAR2_ACCESS within the BAR's 4 GiB (R282): a read of `len` bytes, or a write of the bytes of `data`. -/
def execBar2Access (p : Port) (off : BitVec 48) (data : Option (List Byte)) (len : BitVec 16) (ph : Phys) (s : State) := act s (fun d =>
  let a := d.winBase p + off.toNat
  let n := (data.map List.length).getD len.toNat
  if d.fw.stopped || decide (pow2 32 < off.toNat + n) || !(List.range n).all (fun i => d.barOk p data.isSome (a + i)) then { d with out := .unsupported p :: d.out }
  else
    let d := d.meet ph
    match data with
    | some l => (d.store (agentHost p) a l).release (agentHost p)
    | none =>
      let bad := d.poisoned a n
      let l := (List.range n).map (fun (i : Nat) =>
        if (d.poisoned (a + i) 1).isSome then Config.freeByte d.ctr (a + i) else d.see (agentHost p) (a + i))
      let d := match bad with
        | some b => d.eccEvent none (addrUnit b) b
        | none => d
      { d.countRd a n with out := .bar2Data p l bad.isSome :: d.out })

end Sys2Proof.Machine
end

