-- ==== Sys2Proof/Machine/Dispatch.lean ====
section
/-! DEFINITION. One arm per command: the meaning that it calls. -/

namespace Sys2Proof.Machine

def exec (i : Instr) (s : State) : Host.Outcome State Fault Refusal :=
  match i with
  | .stageWrite p off v => Sys2Proof.Machine.execStageWrite p off v s
  | .check p => Sys2Proof.Machine.execCheck p s
  | .apply p mode cam => Sys2Proof.Machine.execApply p mode cam s
  | .commitCancel p => Sys2Proof.Machine.execCommitCancel p s
  | .discard p => Sys2Proof.Machine.execDiscard p s
  | .badCommand p => Sys2Proof.Machine.execBadCommand p s
  | .commitTakesEffect frame => Sys2Proof.Machine.execCommitTakesEffect frame s
  | .expired => Sys2Proof.Machine.execExpired s
  | .take p => Sys2Proof.Machine.execTake p s
  | .snapReady p => Sys2Proof.Machine.execSnapReady p s
  | .snapDataRead p => Sys2Proof.Machine.execSnapDataRead p s
  | .bundleFetch c => Sys2Proof.Machine.execBundleFetch c s
  | .icacheFill c => Sys2Proof.Machine.execIcacheFill c s
  | .bundleDecode c => Sys2Proof.Machine.execBundleDecode c s
  | .bundleRetire c => Sys2Proof.Machine.execBundleRetire c s
  | .stallWatchdog leader cycles => Sys2Proof.Machine.execStallWatchdog leader cycles s
  | .nop c slot => Sys2Proof.Machine.execNop c slot s
  | .add c sd sa sb => Sys2Proof.Machine.execAdd c sd sa sb s
  | .sub c sd sa sb => Sys2Proof.Machine.execSub c sd sa sb s
  | .mul c sd sa sb => Sys2Proof.Machine.execMul c sd sa sb s
  | .mulh c sd sa sb => Sys2Proof.Machine.execMulh c sd sa sb s
  | .and c sd sa sb => Sys2Proof.Machine.execAnd c sd sa sb s
  | .or c sd sa sb => Sys2Proof.Machine.execOr c sd sa sb s
  | .xor c sd sa sb => Sys2Proof.Machine.execXor c sd sa sb s
  | .shl c sd sa sb => Sys2Proof.Machine.execShl c sd sa sb s
  | .shr c sd sa sb => Sys2Proof.Machine.execShr c sd sa sb s
  | .sra c sd sa sb => Sys2Proof.Machine.execSra c sd sa sb s
  | .min c sd sa sb => Sys2Proof.Machine.execMin c sd sa sb s
  | .max c sd sa sb => Sys2Proof.Machine.execMax c sd sa sb s
  | .minu c sd sa sb => Sys2Proof.Machine.execMinu c sd sa sb s
  | .maxu c sd sa sb => Sys2Proof.Machine.execMaxu c sd sa sb s
  | .slt c sd sa sb => Sys2Proof.Machine.execSlt c sd sa sb s
  | .sltu c sd sa sb => Sys2Proof.Machine.execSltu c sd sa sb s
  | .seq c sd sa sb => Sys2Proof.Machine.execSeq c sd sa sb s
  | .addi c sd sa imm => Sys2Proof.Machine.execAddi c sd sa imm s
  | .andi c sd sa imm => Sys2Proof.Machine.execAndi c sd sa imm s
  | .ori c sd sa imm => Sys2Proof.Machine.execOri c sd sa imm s
  | .xori c sd sa imm => Sys2Proof.Machine.execXori c sd sa imm s
  | .shli c sd sa k => Sys2Proof.Machine.execShli c sd sa k s
  | .shri c sd sa k => Sys2Proof.Machine.execShri c sd sa k s
  | .srai c sd sa k => Sys2Proof.Machine.execSrai c sd sa k s
  | .slti c sd sa imm => Sys2Proof.Machine.execSlti c sd sa imm s
  | .li c sd imm => Sys2Proof.Machine.execLi c sd imm s
  | .lih c sd imm => Sys2Proof.Machine.execLih c sd imm s
  | .aadd c ad aa sb => Sys2Proof.Machine.execAadd c ad aa sb s
  | .aaddi c ad aa imm => Sys2Proof.Machine.execAaddi c ad aa imm s
  | .amov c ad sb => Sys2Proof.Machine.execAmov c ad sb s
  | .mova c sd aa => Sys2Proof.Machine.execMova c sd aa s
  | .br c sa sb cond off => Sys2Proof.Machine.execBr c sa sb cond off s
  | .j c off => Sys2Proof.Machine.execJ c off s
  | .jr c sa => Sys2Proof.Machine.execJr c sa s
  | .mfs c sd x => Sys2Proof.Machine.execMfs c sd x s
  | .mts c sb => Sys2Proof.Machine.execMts c sb s
  | .vadd c x => Sys2Proof.Machine.execVadd c x s
  | .vsub c x => Sys2Proof.Machine.execVsub c x s
  | .vmul c x => Sys2Proof.Machine.execVmul c x s
  | .vfma c x => Sys2Proof.Machine.execVfma c x s
  | .vmin c x => Sys2Proof.Machine.execVmin c x s
  | .vmax c x => Sys2Proof.Machine.execVmax c x s
  | .vabs c x => Sys2Proof.Machine.execVabs c x s
  | .vneg c x => Sys2Proof.Machine.execVneg c x s
  | .vand c x => Sys2Proof.Machine.execVand c x s
  | .vor c x => Sys2Proof.Machine.execVor c x s
  | .vxor c x => Sys2Proof.Machine.execVxor c x s
  | .vshl c x => Sys2Proof.Machine.execVshl c x s
  | .vshr c x => Sys2Proof.Machine.execVshr c x s
  | .vcmp c x o => Sys2Proof.Machine.execVcmp c x o s
  | .vsel c x => Sys2Proof.Machine.execVsel c x s
  | .vmov c x => Sys2Proof.Machine.execVmov c x s
  | .vbcast c x => Sys2Proof.Machine.execVbcast c x s
  | .vext c x => Sys2Proof.Machine.execVext c x s
  | .viota c x => Sys2Proof.Machine.execViota c x s
  | .plog c x o => Sys2Proof.Machine.execPlog c x o s
  | .pset c x b => Sys2Proof.Machine.execPset c x b s
  | .vcvt c x src part scale => Sys2Proof.Machine.execVcvt c x src part scale s
  | .vlut c x tb => Sys2Proof.Machine.execVlut c x tb s
  | .vred c x o => Sys2Proof.Machine.execVred c x o s
  | .vwmax c x k st => Sys2Proof.Machine.execVwmax c x k st s
  | .vwavg c x k st => Sys2Proof.Machine.execVwavg c x k st s
  | .vboxdec c x tb => Sys2Proof.Machine.execVboxdec c x tb s
  | .vnms c x => Sys2Proof.Machine.execVnms c x s
  | .mstream c amask add outl feed ent sv ad se => Sys2Proof.Machine.execMstream c amask add outl feed ent sv ad se s
  | .mswap c amask => Sys2Proof.Machine.execMswap c amask s
  | .mclr c amask ent sn fp => Sys2Proof.Machine.execMclr c amask ent sn fp s
  | .mard c arr ent vd half => Sys2Proof.Machine.execMard c arr ent vd half s
  | .mawr c arr ent va half fp => Sys2Proof.Machine.execMawr c arr ent va half fp s
  | .lds c sd aa size imm => Sys2Proof.Machine.execLds c sd aa size imm s
  | .vld c vd aa imm => Sys2Proof.Machine.execVld c vd aa imm s
  | .vgth c vd aa vb => Sys2Proof.Machine.execVgth c vd aa vb s
  | .srow c amask aa sr row fmt kind ba => Sys2Proof.Machine.execSrow c amask aa sr row fmt kind ba s
  | .wgather c amask aa sp st => Sys2Proof.Machine.execWgather c amask aa sp st s
  | .wfill c am as sm ss => Sys2Proof.Machine.execWfill c am as sm ss s
  | .tld c tb aa => Sys2Proof.Machine.execTld c tb aa s
  | .sts c sb aa size imm => Sys2Proof.Machine.execSts c sb aa size imm s
  | .vst c vb aa p pen w imm => Sys2Proof.Machine.execVst c vb aa p pen w imm s
  | .vsct c vb aa vc => Sys2Proof.Machine.execVsct c vb aa vc s
  | .drain c amask ent sn ad ao stats first last => Sys2Proof.Machine.execDrain c amask ent sn ad ao stats first last s
  | .statst c slot sn aa => Sys2Proof.Machine.execStatst c slot sn aa s
  | .layer c nr => Sys2Proof.Machine.execLayer c nr s
  | .loop c sn end_ => Sys2Proof.Machine.execLoop c sn end_ s
  | .lcset c level sn => Sys2Proof.Machine.execLcset c level sn s
  | .set c sn => Sys2Proof.Machine.execSet c sn s
  | .wait c sn => Sys2Proof.Machine.execWait c sn s
  | .setl c lf sr => Sys2Proof.Machine.execSetl c lf sr s
  | .waitl c lf sr sn => Sys2Proof.Machine.execWaitl c lf sr sn s
  | .bar c => Sys2Proof.Machine.execBar c s
  | .phase c num => Sys2Proof.Machine.execPhase c num s
  | .dma c aa sn => Sys2Proof.Machine.execDma c aa sn s
  | .dwait c sn => Sys2Proof.Machine.execDwait c sn s
  | .end_ c => Sys2Proof.Machine.execEnd c s
  | .replay leader => Sys2Proof.Machine.execReplay leader s
  | .halt p core => Sys2Proof.Machine.execHalt p core s
  | .resume p core => Sys2Proof.Machine.execResume p core s
  | .trailDrop core => Sys2Proof.Machine.execTrailDrop core s
  | .dmaBatchFetch c => Sys2Proof.Machine.execDmaBatchFetch c s
  | .dmaCopy c k => Sys2Proof.Machine.execDmaCopy c k s
  | .dmaGather c k => Sys2Proof.Machine.execDmaGather c k s
  | .dmaFeed c k => Sys2Proof.Machine.execDmaFeed c k s
  | .dmaNop c => Sys2Proof.Machine.execDmaNop c s
  | .dmaDescComplete c => Sys2Proof.Machine.execDmaDescComplete c s
  | .bucketRefill => Sys2Proof.Machine.execBucketRefill s
  | .regulatedRequest core cycles => Sys2Proof.Machine.execRegulatedRequest core cycles s
  | .bwrBucketWrite p core burst v => Sys2Proof.Machine.execBwrBucketWrite p core burst v s
  | .scrub fixed => Sys2Proof.Machine.execScrub fixed s
  | .bar2Access p off data len ph => Sys2Proof.Machine.execBar2Access p off data len ph s
  | .bar0BadAccess p => Sys2Proof.Machine.execBar0BadAccess p s
  | .registerWrite p off v => Sys2Proof.Machine.execRegisterWrite p off v s
  | .rcRead p off => Sys2Proof.Machine.execRcRead p off s
  | .pairLoRead p off => Sys2Proof.Machine.execPairLoRead p off s
  | .pairLoWrite p off v => Sys2Proof.Machine.execPairLoWrite p off v s
  | .pairHiWrite p off v => Sys2Proof.Machine.execPairHiWrite p off v s
  | .frameStart p vc fn corr => Sys2Proof.Machine.execFrameStart p vc fn corr s
  | .frameEnd p vc corr => Sys2Proof.Machine.execFrameEnd p vc corr s
  | .linePacket p vc dt wire crc corr full => Sys2Proof.Machine.execLinePacket p vc dt wire crc corr full s
  | .unmatchedPacket p vc dt corr => Sys2Proof.Machine.execUnmatchedPacket p vc dt corr s
  | .headerError p => Sys2Proof.Machine.execHeaderError p s
  | .deskew k => Sys2Proof.Machine.execDeskew k s
  | .frameComplete n => Sys2Proof.Machine.execFrameComplete n s
  | .frameLate n => Sys2Proof.Machine.execFrameLate n s
  | .sensorWriteBatch n => Sys2Proof.Machine.execSensorWriteBatch n s
  | .ispParamFetch n => Sys2Proof.Machine.execIspParamFetch n s
  | .scbXfer p j v => Sys2Proof.Machine.execScbXfer p j v s
  | .scbXferDone j nack v => Sys2Proof.Machine.execScbXferDone j nack v s
  | .ibi j => Sys2Proof.Machine.execIbi j s
  | .memoryJob m => Sys2Proof.Machine.execMemoryJob m s
  | .memoryJobDone m => Sys2Proof.Machine.execMemoryJobDone m s
  | .accessUnit n au => Sys2Proof.Machine.execAccessUnit n au s
  | .pictureOutput n => Sys2Proof.Machine.execPictureOutput n s
  | .encodeJob n coded => Sys2Proof.Machine.execEncodeJob n coded s
  | .sample n => Sys2Proof.Machine.execSample n s
  | .waitExpired n => Sys2Proof.Machine.execWaitExpired n s
  | .batchEmit n => Sys2Proof.Machine.execBatchEmit n s
  | .batchTimeout n => Sys2Proof.Machine.execBatchTimeout n s
  | .semRead p n both => Sys2Proof.Machine.execSemRead p n both s
  | .semRelease p n v => Sys2Proof.Machine.execSemRelease p n v s
  | .doorbell p q v whole => Sys2Proof.Machine.execDoorbell p q v whole s
  | .entryConsume q => Sys2Proof.Machine.execEntryConsume q s
  | .entryStart q leader => Sys2Proof.Machine.execEntryStart q leader s
  | .entryTimeout q count => Sys2Proof.Machine.execEntryTimeout q count s
  | .completionDeliver q => Sys2Proof.Machine.execCompletionDeliver q s
  | .msixTimer q => Sys2Proof.Machine.execMsixTimer q s
  | .deadlock qs => Sys2Proof.Machine.execDeadlock qs s
  | .qmFlagSet p v => Sys2Proof.Machine.execQmFlagSet p v s
  | .qmFlagClr p v => Sys2Proof.Machine.execQmFlagClr p v s
  | .createQueue p => Sys2Proof.Machine.execCreateQueue p s
  | .deleteQueue p => Sys2Proof.Machine.execDeleteQueue p s
  | .stopQueue p => Sys2Proof.Machine.execStopQueue p s
  | .resumeQueue p => Sys2Proof.Machine.execResumeQueue p s
  | .cancel p => Sys2Proof.Machine.execCancel p s
  | .createContext p => Sys2Proof.Machine.execCreateContext p s
  | .destroyContext p => Sys2Proof.Machine.execDestroyContext p s
  | .give p => Sys2Proof.Machine.execGive p s
  | .adopt p => Sys2Proof.Machine.execAdopt p s
  | .prepareOff p flashOk => Sys2Proof.Machine.execPrepareOff p flashOk s
  | .restStopTest bad hamper repeated void writeOk => Sys2Proof.Machine.execRestStopTest bad hamper repeated void writeOk s
  | .unfence p => Sys2Proof.Machine.execUnfence p s
  | .unfenceTakesEffect u => Sys2Proof.Machine.execUnfenceTakesEffect u s
  | .fwStage p ph => Sys2Proof.Machine.execFwStage p ph s
  | .fwActivate p => Sys2Proof.Machine.execFwActivate p s
  | .handoverBegin => Sys2Proof.Machine.execHandoverBegin s
  | .handoverSwitch vpp => Sys2Proof.Machine.execHandoverSwitch vpp s
  | .actAborted => Sys2Proof.Machine.execActAborted s
  | .fwCancel p => Sys2Proof.Machine.execFwCancel p s
  | .restoreFactory p => Sys2Proof.Machine.execRestoreFactory p s
  | .attest p bad corr rnd => Sys2Proof.Machine.execAttest p bad corr rnd s
  | .loadPatternPack p ph => Sys2Proof.Machine.execLoadPatternPack p ph s
  | .attach p abi => Sys2Proof.Machine.execAttach p abi s
  | .reattach p abi => Sys2Proof.Machine.execReattach p abi s
  | .heartbeat p => Sys2Proof.Machine.execHeartbeat p s
  | .heartbeatTimeout p => Sys2Proof.Machine.execHeartbeatTimeout p s
  | .hostLinkDown p => Sys2Proof.Machine.execHostLinkDown p s
  | .hostLinkUp p => Sys2Proof.Machine.execHostLinkUp p s
  | .hostReset p v => Sys2Proof.Machine.execHostReset p v s
  | .confirmationTest u r temp => Sys2Proof.Machine.execConfirmationTest u r temp s
  | .fieldTest u r temp => Sys2Proof.Machine.execFieldTest u r temp s
  | .fieldOverdue u => Sys2Proof.Machine.execFieldOverdue u s
  | .observedTimeout u => Sys2Proof.Machine.execObservedTimeout u s
  | .healthRecordWrite => Sys2Proof.Machine.execHealthRecordWrite s
  | .healthAgeUpdate => Sys2Proof.Machine.execHealthAgeUpdate s
  | .telemetrySample readings => Sys2Proof.Machine.execTelemetrySample readings s
  | .estimate comp mem links sense => Sys2Proof.Machine.execEstimate comp mem links sense s
  | .pmbusPoll faults => Sys2Proof.Machine.execPmbusPoll faults s
  | .telemetrySafeStep => Sys2Proof.Machine.execTelemetrySafeStep s
  | .telemAck p v => Sys2Proof.Machine.execTelemAck p v s
  | .stepRaise => Sys2Proof.Machine.execStepRaise s
  | .boostStep => Sys2Proof.Machine.execBoostStep s
  | .droopTrip det => Sys2Proof.Machine.execDroopTrip det s
  | .droopPersistence => Sys2Proof.Machine.execDroopPersistence s
  | .supplyWarn rail => Sys2Proof.Machine.execSupplyWarn rail s
  | .supplyRecover rail => Sys2Proof.Machine.execSupplyRecover rail s
  | .warnRamp => Sys2Proof.Machine.execWarnRamp s
  | .supplyReset rail => Sys2Proof.Machine.execSupplyReset rail s
  | .thermalSample readings => Sys2Proof.Machine.execThermalSample readings s
  | .thermalCeilingStep => Sys2Proof.Machine.execThermalCeilingStep s
  | .thermalTrip => Sys2Proof.Machine.execThermalTrip s
  | .idleRetainEnter => Sys2Proof.Machine.execIdleRetainEnter s
  | .idleWake => Sys2Proof.Machine.execIdleWake s
  | .deep p => Sys2Proof.Machine.execDeep p s
  | .wake p => Sys2Proof.Machine.execWake p s
  | .slew p => Sys2Proof.Machine.execSlew p s
  | .step p => Sys2Proof.Machine.execStep p s
  | .eventEdge e sub fall => Sys2Proof.Machine.execEventEdge e sub fall s
  | .stampPop p e => Sys2Proof.Machine.execStampPop p e s
  | .refPpsEdge sub => Sys2Proof.Machine.execRefPpsEdge sub s
  | .refLost => Sys2Proof.Machine.execRefLost s
  | .fsyncPulseStart n => Sys2Proof.Machine.execFsyncPulseStart n s
  | .fsyncPulseEnd n => Sys2Proof.Machine.execFsyncPulseEnd n s
  | .ppsOutPulse => Sys2Proof.Machine.execPpsOutPulse s
  | .syncOutMessage => Sys2Proof.Machine.execSyncOutMessage s
  | .fabPortUp p width gen => Sys2Proof.Machine.execFabPortUp p width gen s
  | .fabPortDown p => Sys2Proof.Machine.execFabPortDown p s
  | .linkKeepalive p => Sys2Proof.Machine.execLinkKeepalive p s
  | .link p k => Sys2Proof.Machine.execLink p k s
  | .linkNak p k => Sys2Proof.Machine.execLinkNak p k s
  | .write p k => Sys2Proof.Machine.execWrite p k s
  | .flag p k => Sys2Proof.Machine.execFlag p k s
  | .ack p k => Sys2Proof.Machine.execAck p k s
  | .nak p k => Sys2Proof.Machine.execNak p k s
  | .hello p k => Sys2Proof.Machine.execHello p k s
  | .helloSend => Sys2Proof.Machine.execHelloSend s
  | .beacon => Sys2Proof.Machine.execBeacon s
  | .rootTimeout => Sys2Proof.Machine.execRootTimeout s
  | .timeSync p k sub => Sys2Proof.Machine.execTimeSync p k sub s
  | .timeSyncSend sub => Sys2Proof.Machine.execTimeSyncSend sub s
  | .timeReq p k subIn subOut => Sys2Proof.Machine.execTimeReq p k subIn subOut s
  | .timeRsp p k sub => Sys2Proof.Machine.execTimeRsp p k sub s
  | .delayMeasure p sub => Sys2Proof.Machine.execDelayMeasure p sub s
  | .pruned p k => Sys2Proof.Machine.execPruned p k s
  | .join p k => Sys2Proof.Machine.execJoin p k s
  | .prune group port told => Sys2Proof.Machine.execPrune group port told s
  | .mcastJoin p group => Sys2Proof.Machine.execMcastJoin p group s
  | .sendWrite r => Sys2Proof.Machine.execSendWrite r s
  | .sendFlag r => Sys2Proof.Machine.execSendFlag r s
  | .sendWriteFlag r => Sys2Proof.Machine.execSendWriteFlag r s
  | .sendComplete r => Sys2Proof.Machine.execSendComplete r s
  | .resendTimeout r => Sys2Proof.Machine.execResendTimeout r s
  | .fwLoad p v => Sys2Proof.Machine.execFwLoad p v s
  | .fwVerifyDone ph vpp => Sys2Proof.Machine.execFwVerifyDone ph vpp s
  | .fwWatchdog core same => Sys2Proof.Machine.execFwWatchdog core same s
  | .qmCheck same => Sys2Proof.Machine.execQmCheck same s
  | .store p bad corr flashOk => Sys2Proof.Machine.execStore p bad corr flashOk s
  | .read p => Sys2Proof.Machine.execRead p s
  | .challenge src => Sys2Proof.Machine.execChallenge src s
  | .verify src slot ph seed => Sys2Proof.Machine.execVerify src slot ph seed s
  | .challengeExpired => Sys2Proof.Machine.execChallengeExpired s
  | .rngRead p => Sys2Proof.Machine.execRngRead p s
  | .coldReset aon => Sys2Proof.Machine.execColdReset aon s
  | .warmReset => Sys2Proof.Machine.execWarmReset s
  | .boot b => Sys2Proof.Machine.execBoot b s
  | .refclkLoss => Sys2Proof.Machine.execRefclkLoss s
  | .validationDone p => Sys2Proof.Machine.execValidationDone p s
  | .startOfTransmission p => Sys2Proof.Machine.execStartOfTransmission p s
  | .sensorBatchEnd j skipped => Sys2Proof.Machine.execSensorBatchEnd j skipped s
  | .doubledRefresh on => Sys2Proof.Machine.execDoubledRefresh on s
  | .eccWindowEnd => Sys2Proof.Machine.execEccWindowEnd s
  | .droopDetectorClear det => Sys2Proof.Machine.execDroopDetectorClear det s
  | .wakeComplete => Sys2Proof.Machine.execWakeComplete s
  | .firmwareReady => Sys2Proof.Machine.execFirmwareReady s
  | .fabPortTrain p => Sys2Proof.Machine.execFabPortTrain p s
  | .packetCrcError p k => Sys2Proof.Machine.execPacketCrcError p k s

end Sys2Proof.Machine
end

