-- ==== Sys2Proof/Safety.lean ====
section
/-! DEFINITION. What counts as a safe run, and the words in which the statements speak of the block: what one command
changes, and what it leaves. -/

namespace Sys2Proof.Safety

open Sys2Proof.Machine

/-- REFCLK has not been lost: the state is defined. -/
def Defined (s : State) : Prop := s.dev.refLost = false

/-- A run of `k` steps from `s` stops nowhere. -/
def Runs (k : Nat) (s : State) : Prop := ∃ t : State, Host.Core.run Sys2Proof.core k s = .next t

/-- The clocks run: REFCLK has not been lost (R470) and no thermal trip has stopped them (R365). -/
abbrev Live (s : State) : Prop := s.dev.refLost = false ∧ s.dev.tripped = false

/-- The state after a command that leaves the device as `d`: the queue and the snapshots as they were, the counter of free
values advanced. -/
def after (s : State) (d : Dev) : State := { s with dev := { d with ctr := s.dev.ctr + 1 } }

/-- The command can be sent: it is no slot operation, or the bundle in issue on its core holds it in its slot, as the core
executes what its bundle holds and nothing else (R108). -/
abbrev Sent (c : Instr) (s : State) : Prop := slotWord c = none ∨ s.dev.holds c = true

/-- A command that can be sent runs on `s` and answers a next state of which `P` holds. -/
def Completes (c : Instr) (s : State) (P : State → Prop) : Prop := Sent c s → ∃ t : State, exec c s = .next t ∧ P t

/-! ### Cores -/

/-- Slot `k` of the core that `c` names can issue, and nothing physical interferes: the clocks run, the core issues, the
slot has not issued yet, and no fault of its datapath is due. -/
abbrev CanIssue (s : State) (c : At) (k : Nat) : Prop :=
  Live s ∧ c.ph = {} ∧ s.dev.issuing c.core.val = true ∧ (s.dev.core c.core.val).hasIssued k = false ∧
  (s.dev.core c.core.val).flips = []

/-- Only cores have changed. -/
def OnlyCores (s t : State) : Prop := t = { s with dev := { s.dev with cores := t.dev.cores, ctr := s.dev.ctr + 1 } }

/-- `t` is `s` after slot `k` of the core that `c` names has issued with the effect `g` on that core, and the watchdog of
its gang has restarted (R123): nothing else has changed. -/
def Issued (s t : State) (c : At) (k : Nat) (g : Core → Core) : Prop :=
  OnlyCores s t ∧ ∀ m : Nat, t.dev.core m =
    { (if m = c.core.val then (g (s.dev.core m)).mark k else s.dev.core m) with
      stall := if (s.dev.core c.core.val).gang = some m then 0 else (s.dev.core m).stall }

/-- A register operand as the earlier bundles left it (R112). -/
def opS (s : State) (c : At) (r : Fin 32) : Dword := (s.dev.core c.core.val).operands.rs r
def opA (s : State) (c : At) (r : Fin 16) : Addr := (s.dev.core c.core.val).operands.ra r

/-- A core with a scalar register written, with an address register written. -/
def putS (r : Fin 32) (x : Dword) (c : Core) : Core := if r = 0 then c else { c with s := Tbl.set c.s r.val x }
def putA (r : Fin 16) (x : Addr) (c : Core) : Core := { c with a := Tbl.set c.a r.val x }
def putV (r : Fin 32) (x : VReg) (c : Core) : Core := { c with v := Tbl.set c.v r.val x }
def putP (r : Fin 8) (x : BitVec 512) (c : Core) : Core := { c with p := Tbl.set c.p r.val x }

/-- 1 for true, 0 for false. -/
def one (b : Bool) : Dword := if b then 1 else 0

/-- The operations on two scalar registers, with the result that Table 5.4 gives each of sA and sB. -/
def scalarTable : List ((At → Fin 32 → Fin 32 → Fin 32 → Instr) × (Dword → Dword → Dword)) :=
  [(.add, fun a b => a + b),
   (.sub, fun a b => a - b),
   (.mul, fun a b => a * b),
   (.mulh, fun a b => (a.signExtend 128 * b.signExtend 128).extractLsb' 64 64),
   (.and, fun a b => a &&& b),
   (.or, fun a b => a ||| b),
   (.xor, fun a b => a ^^^ b),
   (.shl, fun a b => a <<< (b.toNat % 64)),
   (.shr, fun a b => a >>> (b.toNat % 64)),
   (.sra, fun a b => a.sshiftRight (b.toNat % 64)),
   (.min, fun a b => if a.toInt ≤ b.toInt then a else b),
   (.max, fun a b => if a.toInt ≤ b.toInt then b else a),
   (.minu, fun a b => if a.toNat ≤ b.toNat then a else b),
   (.maxu, fun a b => if a.toNat ≤ b.toNat then b else a),
   (.slt, fun a b => one (decide (a.toInt < b.toInt))),
   (.sltu, fun a b => one (decide (a.toNat < b.toNat))),
   (.seq, fun a b => one (decide (a = b)))]

/-- The operations on a scalar register and IMM30, with their results. -/
def immediateTable : List ((At → Fin 32 → Fin 32 → BitVec 30 → Instr) × (Dword → BitVec 30 → Dword)) :=
  [(.addi, fun a i => a + i.signExtend 64),
   (.andi, fun a i => a &&& i.signExtend 64),
   (.ori, fun a i => a ||| i.signExtend 64),
   (.xori, fun a i => a ^^^ i.signExtend 64),
   (.slti, fun a i => one (decide (a.toInt < i.toInt)))]

/-- The shifts by an immediate, with their results. -/
def shiftTable : List ((At → Fin 32 → Fin 32 → Fin 64 → Instr) × (Dword → Nat → Dword)) :=
  [(.shli, fun a k => a <<< k),
   (.shri, fun a k => a >>> k),
   (.srai, fun a k => a.sshiftRight k)]

/-- The core's Trail is off, so that no event writes a record (R138). -/
abbrev TrailOff (s : State) (n : Nat) : Prop := s.dev.fld (Reg.CCn_TRAIL_CTRL n) Fld.CCn_TRAIL_CTRL_EN = 0

/-- A core whose gang is itself alone, and which has no report of slot `k` pending. -/
abbrev Alone (s : State) (n k : Nat) : Prop :=
  s.dev.gangOf n = (n, [n]) ∧ (s.dev.core n).rep k = none

/-- No live loop of the core ends at the bundle in issue. -/
abbrev NotAtLoopEnd (s : State) (n : Nat) : Prop :=
  (s.dev.core n).loops.any (fun x => decide (x.last = (s.dev.core n).here)) = false

/-! ### Vectors -/

/-- A vector or predicate register operand; none where nothing has written it (R133). -/
def opV (s : State) (c : At) (r : Fin 32) : Option VReg := (s.dev.core c.core.val).operands.rv r
def opP (s : State) (c : At) (r : Fin 8) : Option (BitVec 512) := (s.dev.core c.core.val).operands.rp r

/-- Element `i` of width `w` of a register. -/
def elem (w i : Nat) (v : VReg) : Nat := v.toNat / 2 ^ (w * i) % 2 ^ w

/-- The elements that an operation writes (R153): all of them, or with PEN those whose bit of P is 1. -/
def Governs (s : State) (c : At) (x : VF) (m : Nat → Bool) : Prop :=
  (x.pen = false ∧ ∀ i, m i = true) ∨
  (x.pen = true ∧ ∃ p, opP s c x.p = some p ∧ ∀ i, m i = p.getLsbD i)

/-- `y` holds `f i` in the elements that the mask names and the elements of `old` elsewhere, and 0 above the elements. -/
def Filled (y old : VReg) (w cnt : Nat) (m : Nat → Bool) (f : Nat → Nat) : Prop :=
  (∀ i, i < cnt → elem w i y = if m i then f i % 2 ^ w else elem w i old) ∧ y.toNat < 2 ^ (w * cnt)
def FilledP (y old : BitVec 512) (cnt : Nat) (m f : Nat → Bool) : Prop :=
  (∀ i, i < cnt → y.getLsbD i = if m i then f i else old.getLsbD i) ∧ y.toNat < 2 ^ cnt

/-- A vector operation of `cyc` issue cycles completes: VD holds a register of which `Q` holds, and nothing else changes. -/
def VecDone (i : Instr) (s : State) (c : At) (cyc : Nat) (vd : Fin 32) (Q : VReg → Prop) : Prop :=
  Completes i s (fun t => ∃ y, Q y ∧ Issued s t c 1 (fun k => { putV vd y k with checkG := k.checkG + cyc }))
def PredDone (i : Instr) (s : State) (c : At) (cyc : Nat) (pd : Fin 8) (Q : BitVec 512 → Prop) : Prop :=
  Completes i s (fun t => ∃ y, Q y ∧ Issued s t c 1 (fun k => { putP pd y k with checkG := k.checkG + cyc }))

/-- VD as it was; an unwritten one counts as 0 (R153). -/
def oldV (s : State) (c : At) (r : Fin 32) : VReg := (opV s c r).getD 0
def oldP (s : State) (c : At) (r : Fin 8) : BitVec 512 := (opP s c r).getD 0

/-- One lane of arithmetic: an integer result wraps or saturates (R151), a floating-point result is rounded once (R152). -/
def lane (x : VF) (i : Int) (f : Val) : Nat := if x.et.isInt then x.et.fitInt x.sat i else fpCode x.et x.rnd f

/-- The operations on two vectors, with their integer and floating-point meanings. -/
def vectorTable : List ((At → VF → Instr) × (Int → Int → Int) × (Val → Val → Val)) :=
  [(.vadd, fun a b => a + b, Val.add),
   (.vsub, fun a b => a - b, Val.sub),
   (.vmul, fun a b => a * b, Val.mul),
   (.vmin, fun a b => if b < a then b else a, Val.min),
   (.vmax, fun a b => if a < b then b else a, Val.max)]

/-- The bitwise operations. -/
def bitwiseTable : List ((At → VF → Instr) × (Nat → Nat → Nat)) :=
  [(.vand, Nat.land), (.vor, Nat.lor), (.vxor, Nat.xor)]

/-! ### The matrix slot -/

/-- The matrix slot of the core can take an operation, nothing is queued, streaming or still to be drained, and no word of its
accumulators is uncorrectable, so that the operation issues at once. -/
abbrev MatrixIdle (s : State) (c : At) : Prop :=
  Live s ∧ c.ph = {} ∧ s.dev.issuing c.core.val = true ∧ (s.dev.core c.core.val).matrixFree = true ∧
  (s.dev.core c.core.val).mq = [] ∧ (s.dev.core c.core.val).stream = none ∧ (s.dev.core c.core.val).feedSrc = [] ∧
  (s.dev.core c.core.val).older = [] ∧ (s.dev.core c.core.val).drains = [] ∧ (s.dev.core c.core.val).accBad = [] ∧
  (s.dev.core c.core.val).flips = []

/-- `t` is `s` after a matrix operation has passed through the queue and issued with the effect `g` on its core. -/
def MatrixIssued (s t : State) (c : At) (g : Core → Core) : Prop :=
  OnlyCores s t ∧ ∀ m : Nat, t.dev.core m =
    { (if m = c.core.val then
        { g (s.dev.core m) with cur := (s.dev.core m).cur.map (fun b => { b with queued := true, issued := b.issued ||| 4#6 }) }
       else s.dev.core m) with
      stall := if (s.dev.core c.core.val).gang = some m then 0 else (s.dev.core m).stall }

/-- Only cores have changed, and of core `n` only what `g` says, beside the operation's own bundle. -/
def MatrixAcc (s t : State) (c : At) : Prop :=
  OnlyCores s t ∧ ∀ m : Nat, t.dev.core m =
    { (if m = c.core.val then
        { s.dev.core m with
          acc := (t.dev.core m).acc
          cur := (s.dev.core m).cur.map (fun b => { b with queued := true, issued := b.issued ||| 4#6 }) }
       else s.dev.core m) with
      stall := if (s.dev.core c.core.val).gang = some m then 0 else (s.dev.core m).stall }

/-- `k` vectors of a core's stream enter one after the other; none where one of them waits or halts. -/
def vectorsEnter (n : Nat) : Nat → Dev → Option Dev
  | 0, d => some d
  | k + 1, d =>
    match (d.core n).stream with
    | none => none
    | some st =>
      match d.nextVector n st with
      | .ok e => vectorsEnter n k (e.updCore n (fun c => { c with
          stream := if st.v ≤ st.j + 1 then none else c.stream.map (fun s => { s with j := st.j + 1 }) }))
      | _ => none

/-! ### Memory accesses -/

/-- No bucket meters the core's accesses, no core holds one (R203, R204), and no drain of the core is still to write memory
(R49). -/
abbrev Unregulated (s : State) (n : Nat) : Prop :=
  (s.dev.bucketsOf n).all (fun b => decide (s.dev.bRate b = 0)) = true ∧ s.dev.pm.metered = false ∧
  (∀ m, m < 8 → (s.dev.core m).held = none) ∧ (s.dev.core n).drains = []

/-- The registers that count LPDDR6 traffic. -/
def trafficRegs : List Nat :=
  [Reg.MC_RD_BYTES_LO, Reg.MC_RD_BYTES_HI, Reg.MC_WR_BYTES_LO, Reg.MC_WR_BYTES_HI]

/-- `t` is `s` after a load by slot `k`, with the effect `g` on its core: beside cores only the LPDDR6 traffic and the
regulator's order change. -/
def Loaded (s t : State) (c : At) (g : Core → Core) : Prop :=
  t = { s with dev := { s.dev with cores := t.dev.cores, regs := t.dev.regs, ctxLast := t.dev.ctxLast,
                                   ctr := s.dev.ctr + 1 } } ∧
  (∀ m : Nat, t.dev.core m =
    { (if m = c.core.val then (g (s.dev.core m)).mark 3 else s.dev.core m) with
      stall := if (s.dev.core c.core.val).gang = some m then 0 else (s.dev.core m).stall }) ∧
  (∀ o, ¬ trafficRegs.contains o → t.dev.reg o = s.dev.reg o)

/-- `t` is `s` after a store by slot 4 with the effect `g` on its core: beside memory, its visibility and the note of what the
job has written (R337) only the LPDDR6 traffic and the regulator's order change. -/
def Stored (s t : State) (c : At) (g : Core → Core) : Prop :=
  t = { s with dev := { s.dev with cores := t.dev.cores, regs := t.dev.regs, ctxLast := t.dev.ctxLast, mem := t.dev.mem,
                                   stale := t.dev.stale, ctr := s.dev.ctr + 1 } } ∧
  (∀ m : Nat, t.dev.core m =
    { (if m = c.core.val then { (g (s.dev.core m)).mark 4 with outs := (t.dev.core m).outs } else s.dev.core m) with
      stall := if (s.dev.core c.core.val).gang = some m then 0 else (s.dev.core m).stall }) ∧
  (∀ o, ¬ trafficRegs.contains o → t.dev.reg o = s.dev.reg o)

/-- A load of `size` bytes at `a` passes its checks (R144, R186). -/
abbrev LoadOk (s : State) (a size align : Nat) : Prop :=
  s.dev.firstBad a size = none ∧ a % align = 0 ∧ s.dev.poisoned a size = none

/-- The bytes of a load, little-endian (R5). -/
def loaded (s : State) (c : At) (a size : Nat) : Nat := leNat (s.dev.bytes (agentCore c.core.val) a size)

/-- The number in LPDDR6 traffic registers. -/
def rdBytes (s : State) : Nat := s.dev.reg64 Reg.MC_RD_BYTES_LO Reg.MC_RD_BYTES_HI
def wrBytes (s : State) : Nat := s.dev.reg64 Reg.MC_WR_BYTES_LO Reg.MC_WR_BYTES_HI

/-- The bundle's load has issued and no queued stream is still to read the bytes (R112), and no memory is uncorrectable. -/
abbrev StoreFree (s : State) (c : At) (l : List (Nat × Nat)) : Prop :=
  s.dev.storeHeld c.core.val l = false ∧ s.dev.poison = []

/-- Memory differs at most in [a, a + n). -/
def SameOutside (s t : State) (a n : Nat) : Prop := ∀ i : Nat, (i < a ∨ a + n ≤ i) → t.dev.byte i = s.dev.byte i

/-! ### Gangs and jobs -/

/-- Only cores and jobs have changed. -/
def OnlyGang (s t : State) : Prop :=
  t = { s with dev := { s.dev with cores := t.dev.cores, jobs := t.dev.jobs, ctr := s.dev.ctr + 1 } }

/-- Jobs other than that of leader `l` are as they were. -/
def OtherJobs (s t : State) (l : Nat) : Prop := ∀ m, m ≠ l → t.dev.job? m = s.dev.job? m

/-- The gang of leader `l` may be broadcast its next bundle (R108): it runs, nothing holds the broadcast, no miss is
outstanding and every member's queue has room. -/
abbrev MayFetch (s : State) (l : Nat) (j : Job) : Prop :=
  s.dev.job? l = some j ∧ j.state = .running ∧ j.hold = false ∧ j.miss = none ∧ j.members.Nodup ∧
  (∀ n ∈ j.members, (s.dev.core n).iq.length < 32) ∧ s.dev.jobOf l = some (l, j) ∧ (s.dev.core l).halted = false

/-- Core `n` runs in the gang of leader `l`, whose job is `j`. -/
abbrev RunsIn (s : State) (n l : Nat) (j : Job) : Prop :=
  s.dev.jobOf n = some (l, j) ∧ j.state = .running ∧ (s.dev.core n).halted = false

/-- Nothing stops the gang at a bundle: no debug halt is due and no bisect count is in force (R135, R137). -/
abbrev NoStop (s : State) (l : Nat) (j : Job) : Prop := j.haltAt = none ∧ s.dev.bisect l j = none

/-- The matrix slot, the drain path and the feed of a core are at rest: nothing queued, no stream, no drain, no WFILL under
way. -/
abbrev FeedQuiet (s : State) (n : Nat) : Prop :=
  (s.dev.core n).mq = [] ∧ (s.dev.core n).stream = none ∧ (s.dev.core n).drains = [] ∧
  (s.dev.core n).feedSrc.all (fun x => match x with | .wfill _ _ => false | .list _ => true) = true

/-- The engine of core `n` stands before a transfer of the `i`-th descriptor `y` that it still moves (R193, R195, R196, R198): it
may start, its checks pass, its source and destination are usable memory, no word is uncorrectable and no bucket meters it. -/
abbrev TransferReady (s : State) (c : At) (i : Fin 32) (y : DDesc) (kind src : Nat) : Prop :=
  Live s ∧ c.ph = {} ∧ s.dev.issuing c.core.val = true ∧ Unregulated s c.core.val ∧ FeedQuiet s c.core.val ∧
  s.dev.poison = [] ∧ (s.dev.core c.core.val).de.toMove[i.val]? = some y ∧
  ((s.dev.core c.core.val).de.descs.map (·.ser)).Nodup ∧ (s.dev.core c.core.val).de.mayStart y = true ∧
  (dmaFields y.raw).kind = kind ∧
  (y.started = false → dmaCheck y.raw (s.dev.declared c.core.val) = .ok ()) ∧
  s.dev.rowSource c.core.val y (dmaFields y.raw) = .ok src ∧
  (y.pos = 0 → s.dev.firstBad src (dmaFields y.raw).len0 = none ∧
    (kind ≠ 3 → s.dev.firstBad ((dmaFields y.raw).rowDest y.row) (dmaFields y.raw).len0 = none))

/-- No other unfinished descriptor of the engine of core `n` has written a byte of [a, a + k) (R198). -/
abbrev NoRival (s : State) (n ser a k : Nat) : Prop :=
  ∀ i, i < k → (Tbl.getD s.dev.stale (a + i) []).any (fun u => u.who = agentDe n && u.ser ≠ serOf ser) = false

/-- `t` is `s` after work of the engine of the core that `c` names: of that core only the engine, the feed and the note of what
its job has written differ; beside cores, memory and its visibility, only the LPDDR6 traffic and the regulator's order
change. -/
def EngineWork (s t : State) (c : At) : Prop :=
  t = { s with dev := { s.dev with cores := t.dev.cores, regs := t.dev.regs, ctxLast := t.dev.ctxLast, mem := t.dev.mem,
                                   stale := t.dev.stale, ctr := s.dev.ctr + 1 } } ∧
  (∀ m : Nat, t.dev.core m =
    if m = c.core.val then
      { s.dev.core m with de := (t.dev.core m).de, feedSrc := (t.dev.core m).feedSrc,
                          feedMain := (t.dev.core m).feedMain, feedSide := (t.dev.core m).feedSide,
                          outs := (t.dev.core m).outs }
    else s.dev.core m) ∧
  (∀ o, ¬ trafficRegs.contains o → t.dev.reg o = s.dev.reg o)

/-- One register has the value `v`, every other register is as it was. -/
def RegIs (s t : State) (o : Nat) (v : Word) : Prop := ∀ k, t.dev.reg k = if k = o then v else s.dev.reg k

/-! ### Hosts -/

/-- The code of a port's commit status, of its snapshot status. -/
def commitCode (s : State) (p : Port) : Nat := s.dev.fldP p Reg.GLB_COMMIT_STATUS Fld.GLB_COMMIT_STATUS_CODE
def snapCodeOf (s : State) (p : Port) : Nat := s.dev.fldP p Reg.GLB_SNAP_STATUS Fld.GLB_SNAP_STATUS_CODE

/-- Beside registers and what `t` itself shows of the ports, nothing has changed. -/
def OnlyHost (s t : State) : Prop :=
  t = { s with dev := { s.dev with regs := t.dev.regs, ports := t.dev.ports, commit := t.dev.commit, ctr := s.dev.ctr + 1 } }

/-- An admin command of OP `op`, its reserved fields 0, stands at the head of the port's queue and can be executed. -/
abbrev AdminReady (s : State) (p : Port) (op : Nat) (e : Entry) : Prop :=
  Live s ∧ s.dev.adminHead p op = some e ∧ badAdmin e.raw = false

/-- An admin command has completed DONE with AUX `aux` on the device `d`, or has failed. -/
def AdminDone (s t : State) (p : Port) (e : Entry) (aux : Nat) (d : Dev) : Prop :=
  t = after s (d.adminEnd p.idx e.count { status := 0, aux := BitVec.ofNat 32 aux })
def AdminFailed (s t : State) (p : Port) (e : Entry) (st aux : Nat) : Prop :=
  t = after s (s.dev.adminEnd p.idx e.count { status := st, aux := BitVec.ofNat 32 aux })

/-! ### The rest of the block -/

/-- Only registers have changed; one register counts `n`; one field of one register takes `v`. -/
def OnlyRegs (s t : State) : Prop := t = after s { s.dev with regs := t.dev.regs }
def Counts (s t : State) (o n : Nat) : Prop := OnlyRegs s t ∧ RegIs s t o (s.dev.reg o + BitVec.ofNat 32 n)
def FieldIs (s t : State) (o : Nat) (f : Fld) (v : Nat) : Prop :=
  t.dev.fld o f = v ∧ OnlyRegs s t ∧ RegIs s t o (f.put (s.dev.reg o) v)

/-- Media engines' own state and registers have changed, nothing else. -/
def OnlyMedia (s t : State) : Prop := t = after s { s.dev with regs := t.dev.regs, med := t.dev.med }

/-- What the power manager sends: set points of VDD_CORE (R347), CLEAR_FAULTS (R348). -/
def toRegulator : Out → Bool
  | .avsVoltage _ _ | .clearFaults _ => true
  | _ => false

/-- The power manager, its registers and what firmware keeps for it have changed, and it may have sent something to a regulator;
nothing else. -/
def OnlyPower (s t : State) : Prop :=
  t = after s { s.dev with regs := t.dev.regs, pm := t.dev.pm, fw := t.dev.fw, out := t.dev.out } ∧
  ∃ l, t.dev.out = l ++ s.dev.out ∧ ∀ o ∈ l, toRegulator o = true

/-- The fabric and registers have changed, nothing else. -/
def OnlyFabric (s t : State) : Prop := t = after s { s.dev with regs := t.dev.regs, fab := t.dev.fab }

/-- The fabric and registers have changed, packets may have been sent, nothing else. -/
def FabricSent (s t : State) : Prop :=
  t = after s { s.dev with regs := t.dev.regs, fab := t.dev.fab, out := t.dev.out }

/-- No fabric port has anything to send, no multicast packet waits, and none of this device for itself. -/
abbrev FabQuiet (s : State) : Prop :=
  s.dev.fab.mwait = [] ∧ s.dev.fab.loop = [] ∧ ∀ p, p < 4 → (s.dev.fport p).hello = [] ∧ (s.dev.fport p).time = [] ∧ (s.dev.fport p).vc1 = [] ∧
    (s.dev.fport p).fwd = [] ∧ (s.dev.fport p).own = [] ∧ (s.dev.fport p).branch = []

/-- Port `p` sends packets: it is UP and HELLO has been exchanged (R384). -/
abbrev Greeted (s : State) (p : Nat) : Prop :=
  s.dev.linkUp p = true ∧ s.dev.nbrValid p = true ∧ (s.dev.fport p).greeted = true

/-- A packet arrives on a port that is UP with the LSEQ that the port expects (R385). -/
abbrev InOrder (s : State) (p : Fin 4) (k : FPkt) : Prop :=
  s.dev.linkUp p.val = true ∧ k.lseq % 65536 = (s.dev.fport p.val).rx

/-- Registers other than those of the list are as they were. -/
def RegsOutside (s t : State) (l : List Nat) : Prop := ∀ o, ¬ l.contains o → t.dev.reg o = s.dev.reg o

/-- The 32-bit word of memory at an address (R5). -/
def memWord (t : State) (a : Nat) : Nat := leNat ((List.range 4).map (fun i => t.dev.byte (a + i)))

end Sys2Proof.Safety
end

