-- ==== Sys2Proof/Certificates/Slice0/Obligations.lean ====
section
/-! DEFINITION. The statements for the provers. -/

open Sys2Proof Sys2Proof.Machine Sys2Proof.Safety

/-- A step takes the command at the front of the queue and executes it on the state with the queue's rest; on an empty
queue the block idles (the model's choice, log entry 2). -/
def Obligations.StepTakesFrontCommand : Prop :=
  (∀ (c : Instr) (rest : List Instr) (s : State), s.pending = c :: rest → step s = exec c { s with pending := rest }) ∧
  (∀ s : State, s.pending = [] → step s = .next s)

/-- No command changes the queue of waiting commands.
Model's own readings in it: log entry 1. -/
def Obligations.CommandsKeepQueue : Prop :=
  ∀ (c : Instr) (s t : State), exec c s = .next t → t.pending = s.pending

/-- R365: a thermal trip stops every clock until PORST_N is asserted. From a tripped state every step but one that takes
COLD_RESET or REFCLK_LOSS leaves the device and the snapshots as they are, so the device stays tripped.
Model's own readings in it: log entry 4. -/
def Obligations.TripHoldsUntilColdReset : Prop :=
  ∀ (s t : State) (c : Instr) (rest : List Instr), s.pending = c :: rest → (∀ b, c ≠ .coldReset b) → c ≠ .refclkLoss →
    s.dev.refLost = false → s.dev.tripped = true → step s = .next t →
    t = { s with pending := rest } ∧ t.dev.tripped = true

/-- R118, R147, R148 (Table 5.4): s0 reads 0 and a write to it is discarded; each operation on scalar registers, with IMM30 or
with a shift count, LI and LIH issue, write their result to sD and change nothing else. Model's own readings in it: log entry
12. -/
def Obligations.ScalarOperations : Prop :=
  (∀ (c : Core) (r q : Fin 32) (x : Dword),
     (putS r x c).view.rs q = (if q = r ∧ r ≠ 0 then x else c.view.rs q) ∧ c.view.rs 0 = 0 ∧
     putS 0 x c = c) ∧
  (∀ e ∈ scalarTable, ∀ (c : At) (sd sa sb : Fin 32) (s : State), CanIssue s c 0 →
     Completes (e.1 c sd sa sb) s (fun t => Issued s t c 0 (putS sd (e.2 (opS s c sa) (opS s c sb))))) ∧
  ((∀ e ∈ immediateTable, ∀ (c : At) (sd sa : Fin 32) (imm : BitVec 30) (s : State), CanIssue s c 0 →
     Completes (e.1 c sd sa imm) s (fun t => Issued s t c 0 (putS sd (e.2 (opS s c sa) imm)))) ∧
   (∀ e ∈ shiftTable, ∀ (c : At) (sd sa : Fin 32) (k : Fin 64) (s : State), CanIssue s c 0 →
     Completes (e.1 c sd sa k) s (fun t => Issued s t c 0 (putS sd (e.2 (opS s c sa) k.val)))) ∧
   (∀ (c : At) (sd : Fin 32) (imm : BitVec 32) (s : State), CanIssue s c 0 →
     Completes (.li c sd imm) s (fun t => Issued s t c 0 (putS sd (imm.signExtend 64)))) ∧
   (∀ (c : At) (sd : Fin 32) (imm : BitVec 32) (s : State), CanIssue s c 0 →
     Completes (.lih c sd imm) s (fun t => ∃ x : Dword, x.toNat / 2 ^ 32 = imm.toNat ∧
       x.setWidth 32 = (opS s c sd).setWidth 32 ∧ Issued s t c 0 (putS sd x))))

/-- R148, R149, Table 4.5: address results keep bits [47:0] and wrap modulo 2^48; MOVA zero-extends. MFS writes the special
register's value to sD; MTS clears the bits of STICKY that sB sets, but none that its own bundle raises. Both wait for the
streams of earlier bundles where they concern STICKY (R112). Model's own readings in it: log entries 12 and 153. -/
def Obligations.AddressAndSpecialRegisters : Prop :=
  (∀ (c : At) (ad aa : Fin 16) (sb sd : Fin 32) (imm : BitVec 32) (s : State), CanIssue s c 0 →
     Completes (.aadd c ad aa sb) s (fun t => ∃ x : Addr, Issued s t c 0 (putA ad x) ∧
       x.toNat = ((opA s c aa).toNat + (opS s c sb).toNat) % 2 ^ 48) ∧
     Completes (.aaddi c ad aa imm) s (fun t => ∃ x : Addr, Issued s t c 0 (putA ad x) ∧
       (x.toNat : Int) = ((opA s c aa).toNat + imm.toInt) % 2 ^ 48) ∧
     Completes (.amov c ad sb) s (fun t => ∃ x : Addr, Issued s t c 0 (putA ad x) ∧
       x.toNat = (opS s c sb).toNat % 2 ^ 48) ∧
     Completes (.mova c sd aa) s (fun t => ∃ x : Dword, Issued s t c 0 (putS sd x) ∧ x.toNat = (opA s c aa).toNat)) ∧
  ((∀ (c : At) (sd sb : Fin 32) (x : Spec) (s : State), CanIssue s c 0 →
     (x ≠ .sticky ∨ (s.dev.core c.core.val).earlierStream = false → Completes (.mfs c sd x) s (fun t => Issued s t c 0
       (putS sd (s.dev.special c.core.val (s.dev.core c.core.val).operands x)))) ∧
     ((s.dev.core c.core.val).earlierStream = false → Completes (.mts c sb) s (fun t => Issued s t c 0 (fun k =>
       { k with sticky := (k.sticky &&& ~~~ ((opS s c sb).setWidth 2)) ||| (k.cur.map (fun b => b.raised)).getD 0 }))) ∧
     ((s.dev.core c.core.val).earlierStream = true →
       Completes (.mfs c sd .sticky) s (fun t => t = after s s.dev) ∧ Completes (.mts c sb) s (fun t => t = after s s.dev))) ∧
   (∀ (d : Dev) (n l : Nat) (j : Job) (v : View) (k : Fin 4), d.jobOf n = some (l, j) →
     d.special n v .gangSize = BitVec.ofNat 64 j.members.length ∧
     d.special n v .contextId = BitVec.ofNat 64 j.ctx ∧
     d.special n v .queueId = BitVec.ofNat 64 j.queue ∧
     d.special n v .jobTag = j.tag.setWidth 64 ∧
     d.special n v .replays = BitVec.ofNat 64 j.replays ∧
     d.special n v .layerCount = (d.core n).layerCount.setWidth 64 ∧
     d.special n v .timeLo = (d.time.setWidth 32).setWidth 64 ∧
     d.special n v .timeHi = d.time >>> 32 ∧
     d.special n v .sticky = v.sticky.setWidth 64 ∧
     d.special n v .retiredLo = (v.retired.setWidth 32).setWidth 64 ∧
     d.special n v .retiredHi = v.retired >>> 32 ∧
     d.special n v (.lc k) = (Tbl.getD v.lc k.val 0).setWidth 64 ∧
     d.special n v .loopDepth = BitVec.ofNat 64 v.depth))

/-- R149, R109, R127, R130, R131 for a core that is its own gang: a branch that is not taken only issues; a taken one
closes the loops whose body does not hold its target; LOOP opens a level, or none for a count of 0; LCSET sets the counter
of a live level. NOP does nothing.
Model's own readings in it: log entries 12, 13 and 43. -/
def Obligations.ControlFlowOfOneCore : Prop :=
  ∀ (c : At) (s : State), TrailOff s c.core.val →
    (CanIssue s c 0 → Alone s c.core.val 0 →
      (∀ (sa sb : Fin 32) (cond : Cond) (off : BitVec 24), condHolds cond (opS s c sa) (opS s c sb) = false →
        Completes (.br c sa sb cond off) s (fun t => Issued s t c 0 (fun k => k))) ∧
      (NotAtLoopEnd s c.core.val →
        (∀ (sa sb : Fin 32) (cond : Cond) (off : BitVec 24), condHolds cond (opS s c sa) (opS s c sb) = true →
          Completes (.br c sa sb cond off) s (fun t => Issued s t c 0 (fun k =>
            let tgt := (((s.dev.core c.core.val).here : Int) + off.toInt) % 2 ^ 32
            { k with branchTo := some tgt.toNat, taken := true, loops := k.loops.takeWhile (fun x => x.holds tgt.toNat) }))) ∧
        (∀ off : BitVec 24,
          Completes (.j c off) s (fun t => Issued s t c 0 (fun k =>
            let tgt := (((s.dev.core c.core.val).here : Int) + off.toInt) % 2 ^ 32
            { k with branchTo := some tgt.toNat, taken := true, loops := k.loops.takeWhile (fun x => x.holds tgt.toNat) }))) ∧
        (∀ sa : Fin 32,
          Completes (.jr c sa) s (fun t => Issued s t c 0 (fun k =>
            let tgt := (opS s c sa).toNat % 2 ^ 32
            { k with branchTo := some tgt, taken := true, loops := k.loops.takeWhile (fun x => x.holds tgt) }))))) ∧
    (CanIssue s c 5 → Alone s c.core.val 5 →
      (∀ (sn : Fin 32) (e : BitVec 20), (s.dev.core c.core.val).loops.length < 4 → e ≠ 0 →
        (∀ y, (s.dev.core c.core.val).loops.getLast? = some y → (s.dev.core c.core.val).here + e.toNat ≤ y.last) →
        Completes (.loop c sn e) s (fun t => Issued s t c 5 (fun k =>
          let x := (opS s c sn).toNat % 2 ^ 32
          if x = 0 then { k with branchTo := some (k.here + e.toNat + 1) }
          else { k with lc := Tbl.set k.lc k.loops.length (BitVec.ofNat 32 x),
                        loops := k.loops ++ [⟨k.here + 1, k.here + e.toNat⟩] }))) ∧
      (∀ (lv : Fin 4) (sn : Fin 32), lv.val < (s.dev.core c.core.val).loops.length →
        Completes (.lcset c lv sn) s (fun t => Issued s t c 5 (fun k =>
          { k with lc := Tbl.set k.lc lv.val ((opS s c sn).setWidth 32) })))) ∧
    (Live s → ∀ slot : Fin 6, Completes (.nop c slot) s (fun t => t = after s s.dev))

/-- R133, R151 to R153 (Tables 5.6 and 5.7): element-wise arithmetic writes each governed element of VD with its lane's result; an
element type that it does not accept halts with FORMAT_MISMATCH, an unwritten source with REG_UNSET.
Model's own readings in it: log entries 12, 45 and 154. -/
def Obligations.VectorArithmeticAndHalts : Prop :=
  (∀ (c : At) (x : VF) (s : State) (m : Nat → Bool) (a : VReg), CanIssue s c 1 → x.et.arith = true → Governs s c x m →
     opV s c x.va = some a →
     VecDone (.vabs c x) s c x.et.cycles x.vd (fun y =>
       Filled y (oldV s c x.vd) x.et.width x.et.count m (fun i =>
         lane x (x.et.toInt (elem x.et.width i a)).natAbs (x.et.decode (elem x.et.width i a)).abs)) ∧
     VecDone (.vneg c x) s c x.et.cycles x.vd (fun y =>
       Filled y (oldV s c x.vd) x.et.width x.et.count m (fun i =>
         lane x (-(x.et.toInt (elem x.et.width i a))) (x.et.decode (elem x.et.width i a)).neg)) ∧
     ∀ b : VReg, opV s c x.vb = some b →
       (∀ o ∈ vectorTable, VecDone (o.1 c x) s c x.et.cycles x.vd (fun y =>
         Filled y (oldV s c x.vd) x.et.width x.et.count m (fun i =>
           let p := elem x.et.width i a
           let q := elem x.et.width i b
           lane x (o.2.1 (x.et.toInt p) (x.et.toInt q)) (o.2.2 (x.et.decode p) (x.et.decode q))))) ∧
       (x.et.isInt = true →
         VecDone (.vshl c x) s c x.et.cycles x.vd (fun y =>
           Filled y (oldV s c x.vd) x.et.width x.et.count m (fun i =>
             x.et.fitInt x.sat (x.et.toInt (elem x.et.width i a) * 2 ^ (elem x.et.width i b % x.et.width)))) ∧
         VecDone (.vshr c x) s c x.et.cycles x.vd (fun y =>
           Filled y (oldV s c x.vd) x.et.width x.et.count m (fun i =>
             x.et.fitInt x.sat (x.et.toInt (elem x.et.width i a) / 2 ^ (elem x.et.width i b % x.et.width))))) ∧
       ∀ e : VReg, opV s c x.vc = some e →
         VecDone (.vfma c x) s c x.et.cycles x.vd (fun y =>
           Filled y (oldV s c x.vd) x.et.width x.et.count m (fun i =>
             let p := elem x.et.width i a
             let q := elem x.et.width i b
             let r := elem x.et.width i e
             lane x (x.et.toInt p * x.et.toInt q + x.et.toInt r)
               (((x.et.decode p).mul (x.et.decode q)).add (x.et.decode r))))) ∧
  (∀ o ∈ vectorTable, ∀ (c : At) (x : VF) (s : State), CanIssue s c 1 →
     (x.et.arith = false → Completes (o.1 c x) s (fun t =>
       t = after s (s.dev.haltGang c.core.val .formatMismatch 1 0 (s.dev.curPos c.core.val)))) ∧
     (x.et.arith = true → opV s c x.va = none → Completes (o.1 c x) s (fun t =>
       t = after s (s.dev.haltGang c.core.val .regUnset 1 x.va.val (s.dev.curPos c.core.val)))))

/-- R154 to R159 (Table 5.7): moves, bitwise operations, selection, predicates, conversion with its flags, table lookup, reduction,
windows and box decode write what they govern and nothing else.
Model's own readings in it: log entries 12, 46, 47 and 160. -/
def Obligations.VectorMovesPredicatesAndConversions : Prop :=
  (∀ (c : At) (x : VF) (s : State) (m : Nat → Bool), CanIssue s c 1 → Governs s c x m →
     VecDone (.vbcast c x) s c 1 x.vd (fun y =>
       Filled y (oldV s c x.vd) x.et.viewWidth x.et.count m (fun _ => (opS s c x.va).toNat)) ∧
     (x.et.arith = true → x.et.isInt = true →
       VecDone (.viota c x) s c 1 x.vd (fun y =>
         Filled y (oldV s c x.vd) x.et.width x.et.count m (fun i => x.et.fitInt x.sat (i : Int)))) ∧
     ∀ a : VReg, opV s c x.va = some a →
       VecDone (.vmov c x) s c 1 x.vd (fun y =>
         Filled y (oldV s c x.vd) x.et.viewWidth x.et.count m (fun i => elem x.et.viewWidth i a)) ∧
       Completes (.vext c x) s (fun t =>
         let e := elem x.et.viewWidth ((opS s c x.vb).toNat % x.et.count) a
         let r : Dword := if x.et.isInt = true ∧ x.et ≠ .uint8 then BitVec.ofInt 64 (sgn x.et.viewWidth e) else BitVec.ofNat 64 e
         Issued s t c 1 (fun k => { putS x.vd r k with checkG := k.checkG + 1 })) ∧
       ∀ b : VReg, opV s c x.vb = some b →
         (∀ o ∈ bitwiseTable, VecDone (o.1 c x) s c 1 x.vd (fun y =>
           Filled y (oldV s c x.vd) x.et.viewWidth x.et.count m (fun i =>
             o.2 (elem x.et.viewWidth i a) (elem x.et.viewWidth i b)))) ∧
         ∀ p : BitVec 512, opP s c x.p = some p →
           VecDone (.vsel c x) s c 1 x.vd (fun y =>
             Filled y 0 x.et.viewWidth x.et.count (fun _ => true) (fun i =>
               if p.getLsbD i then elem x.et.viewWidth i a else elem x.et.viewWidth i b))) ∧
  (∀ (c : At) (x : VF) (s : State) (m : Nat → Bool), CanIssue s c 1 → Governs s c x m →
     (∀ (o : VCmp) (a b : VReg), x.et.arith = true → opV s c x.va = some a → opV s c x.vb = some b →
       PredDone (.vcmp c x o) s c x.et.cycles (predOf x.vd) (fun y =>
         FilledP y (oldP s c (predOf x.vd)) x.et.count m (fun i =>
           vcmpHolds o ((x.et.decode (elem x.et.width i a)).cmp (x.et.decode (elem x.et.width i b)))))) ∧
     (∀ (o : PLogOp) (p q : BitVec 512), opP s c (predOf x.va) = some p → opP s c (predOf x.vb) = some q →
       PredDone (.plog c x o) s c 1 (predOf x.vd) (fun y =>
         FilledP y (oldP s c (predOf x.vd)) x.et.count m (fun i => plogHolds o (p.getLsbD i) (q.getLsbD i)))) ∧
     (∀ b : Bool, PredDone (.pset c x b) s c 1 (predOf x.vd) (fun y =>
       FilledP y (oldP s c (predOf x.vd)) x.et.count m (fun _ => b))) ∧
     (∀ a : VReg, x.et = .fp32 → (opS s c x.vc).toNat ≤ 32 → opV s c x.va = some a →
       PredDone (.vnms c x) s c 1 (predOf x.vd) (fun y =>
         FilledP y (oldP s c (predOf x.vd)) 128 m (fun i =>
           (nmsKeep (vals32 a) (fp32 ((opS s c x.vb).setWidth 32)) (opS s c x.vc).toNat).contains i)))) ∧
  (∀ (c : At) (x : VF) (s : State) (m : Nat → Bool) (a : VReg), CanIssue s c 1 → Governs s c x m →
     opV s c x.va = some a →
     (∀ (src : Fmt) (part : Fin 4) (sc : Int), src.isCb = false → x.et.isCb = false →
       part.val < (if src.count ≤ x.et.count then x.et.count / src.count else src.count / x.et.count) →
       Completes (.vcvt c x src part sc) s (fun t => ∃ (y : VReg) (fl : BitVec 6),
         let cv := fun i => convert x.et x.rnd x.novf sc (src.decode (elem src.width i a))
         let first := if x.et.count < src.count then part.val * x.et.count else 0
         let used := (List.range (Nat.min src.count x.et.count)).map (fun i => cv (first + i))
         Filled y (oldV s c x.vd) x.et.width x.et.count m (fun i =>
           if x.et.count ≤ src.count then (cv (first + i)).code
           else if part.val * src.count ≤ i ∧ i < part.val * src.count + src.count then (cv (i - part.val * src.count)).code
           else elem x.et.width i (oldV s c x.vd)) ∧
         fl = used.foldl (fun f r => f ||| r.flags) 0 ∧
         Issued s t c 1 (fun k => { putV x.vd y k with checkG := k.checkG + x.et.cycles, convFlags := k.convFlags ||| fl }))) ∧
     (x.et = .fp32 → ∀ (tb : Fin 4) (tab : TabBuf), Tbl.find? (s.dev.core c.core.val).tb tb.val = some tab →
       VecDone (.vlut c x tb) s c 1 x.vd (fun y =>
         Filled y (oldV s c x.vd) 32 128 m (fun i => (tab.lookup (Fmt.fp32.decode (elem 32 i a))).code32.toNat)) ∧
       ∀ b e : VReg, opV s c x.vb = some b → opV s c x.vc = some e → VecDone (.vboxdec c x tb) s c 1 x.vd (fun y =>
         Filled y (oldV s c x.vd) 32 128 m (fun i =>
           (af (boxDecode tab (vals32 a) (vals32 b) (vals32 e) (i / 4)) (i % 4)).code32.toNat))) ∧
     (x.et.arith = true → ∀ (o : RedOp) (k : Fin 8) (st : Fin 3),
       VecDone (.vred c x o) s c x.et.cycles x.vd (fun y =>
         Filled y 0 x.et.width x.et.count (fun _ => true) (fun i =>
           if i = 0 then (treeReduce (redOp x o) x.et.levels ((List.range x.et.count).map (fun j =>
             if m j then elem x.et.width j a else redIdentity x.et o))).headD 0 else 0)) ∧
       ∀ b : VReg, opV s c x.vb = some b → VecDone (.vwmax c x k st) s c x.et.cycles x.vd (fun y =>
         Filled y (oldV s c x.vd) x.et.width x.et.count m (fun i =>
           if i < x.et.count / 2 ^ st.val then
             winMax x (k.val + 1) ((List.range (k.val + 1)).map (fun j =>
               let p := i * 2 ^ st.val + j
               if p < x.et.count then elem x.et.width p a else elem x.et.width (p - x.et.count) b))
           else 0)) ∧
       VecDone (.vwavg c x k st) s c x.et.cycles x.vd (fun y =>
         Filled y (oldV s c x.vd) x.et.width x.et.count m (fun i =>
           if i < x.et.count / 2 ^ st.val then
             winAvg x (k.val + 1) ((List.range (k.val + 1)).map (fun j =>
               let p := i * 2 ^ st.val + j
               if p < x.et.count then elem x.et.width p a else elem x.et.width (p - x.et.count) b))
           else 0))))

/-- R144, R164, R165, R170, R171: LDS, VLD and VGTH write what they load to the destination register, TLD a table buffer, SROW
one row of the shadow sets (a marked row holds zeros, R55), an index outside its range halting with ARRAY_STATE, and WFILL
appends the bytes of both lanes to the feed queue. Model's own readings in it: log entries 12, 13, 55 and 56. -/
def Obligations.LoadsOfRegistersAndTables : Prop :=
  (∀ (c : At) (s : State) (aa : Fin 16), CanIssue s c 3 → Unregulated s c.core.val →
     (∀ (sd : Fin 32) (z : LdSize) (imm : BitVec 22),
       let a := ((opA s c aa).toNat + imm.toInt) % 2 ^ 48
       let n := ldBytes z
       LoadOk s a.toNat n n →
       Completes (.lds c sd aa z imm) s (fun t =>
         Loaded s t c (putS sd (ldExtend z (loaded s c a.toNat n))) ∧
         rdBytes t = (rdBytes s + lpUnits s.dev a.toNat n) % 2 ^ 64 ∧ wrBytes t = wrBytes s)) ∧
     (∀ (vd : Fin 32) (imm : BitVec 25),
       let a := ((opA s c aa).toNat + imm.toInt) % 2 ^ 48
       LoadOk s a.toNat 512 64 →
       Completes (.vld c vd aa imm) s (fun t =>
         Loaded s t c (putV vd (BitVec.ofNat 4096 (loaded s c a.toNat 512))) ∧
         rdBytes t = (rdBytes s + lpUnits s.dev a.toNat 512) % 2 ^ 64 ∧ wrBytes t = wrBytes s)) ∧
     (∀ (vd vb : Fin 32) (idx : VReg), opV s c vb = some idx →
       let a := fun i => (((opA s c aa).toNat + 4 * sgn 32 (elem 32 i idx)) % 2 ^ 48).toNat
       (∀ i, i < 128 → inCore c.core.val (a i) = true ∧ a i % 4 = 0 ∧ s.dev.poisoned (a i) 4 = none) →
       Completes (.vgth c vd aa vb) s (fun t => ∃ y : VReg,
         (∀ i, i < 128 → elem 32 i y = loaded s c (a i) 4) ∧ Loaded s t c (putV vd y) ∧
         rdBytes t = rdBytes s ∧ wrBytes t = wrBytes s))) ∧
  (∀ (c : At) (s : State) (tb : Fin 4) (aa : Fin 16), CanIssue s c 3 → Unregulated s c.core.val →
     let a := (opA s c aa).toNat
     LoadOk s a 1040 16 →
     loaded s c (a + 4) 4 / 2 ^ 8 = 0 → loaded s c (a + 4) 4 ≠ 128 → loaded s c (a + 8) 8 = 0 →
     Completes (.tld c tb aa) s (fun t =>
       let b : TabBuf :=
         { x0 := BitVec.ofNat 32 (loaded s c a 4), ls := sgn 8 (loaded s c (a + 4) 4),
           t := (List.range 256).map (fun i => BitVec.ofNat 32 (loaded s c (a + 16 + 4 * i) 4)) }
       Loaded s t c (fun k => { k with tb := Tbl.set k.tb tb.val b }))) ∧
  ((∀ (c : At) (s : State) (am : BitVec 4) (aa : Fin 16) (sr : Fin 32) (row : Fin 128) (f : Fmt) (k : RowKind) (ba : Fin 4)
       (e : Core),
     CanIssue s c 3 → Unregulated s c.core.val → (s.dev.core c.core.val).swapQueued am = false →
     f.gatherable = true → (ba = 0 ∨ blockable f = true) →
     let per := rowBytesOf k f
     let a := (opA s c aa).toNat
     LoadOk s a (per * (arrays am).length) 1 →
     (s.dev.core c.core.val).putRows
       (((List.range (arrays am).length).zip (arrays am)).map (fun e => (e.2, loaded s c (a + per * e.1) per)))
       k (row.val + (opS s c sr).toNat % 2 ^ 32) f (baSize ba) = .ok e →
     rowInRange k f (baSize ba) (row.val + (opS s c sr).toNat % 2 ^ 32) = true →
     Completes (.srow c am aa sr row f k ba) s (fun t => Loaded s t c (fun x => { x with sets := e.sets }))) ∧
   (∀ (c : At) (s : State) (am : BitVec 4) (aa : Fin 16) (sr : Fin 32) (row : Fin 128) (f : Fmt) (k : RowKind) (ba : Fin 4),
     CanIssue s c 3 → Unregulated s c.core.val → (s.dev.core c.core.val).swapQueued am = false →
     f.gatherable = true → (ba = 0 ∨ blockable f = true) →
     LoadOk s (opA s c aa).toNat (rowBytesOf k f * (arrays am).length) 1 →
     rowInRange k f (baSize ba) (row.val + (opS s c sr).toNat % 2 ^ 32) = false →
     Completes (.srow c am aa sr row f k ba) s (fun t =>
       t = after s (s.dev.haltGang c.core.val .arrayState 3 0 (s.dev.curPos c.core.val)))) ∧
   (∀ (x y : CellSet) (row : Nat) (f : Fmt) (b img : Nat), x.putRow .main row f b img = .ok y →
     y.tag = some (f, b) ∧ y.fresh = false ∧
     Tbl.find? y.rows row = some { fmt := f, bits := if y.disabled.contains row then 0 else BitVec.ofNat 512 img } ∧
     (∀ r, r ≠ row → Tbl.find? y.rows r = Tbl.find? x.rows r) ∧
     (x.fresh = true → y.marked = 0 ∧ y.disabled = [] ∧ y.blk = []) ∧
     (x.fresh = false → x.tag = some (f, b) ∧ y.marked = x.marked ∧ y.disabled = x.disabled ∧ y.blk = x.blk ∧ y.side = x.side)) ∧
   (∀ (x y : CellSet) (row : Nat) (f : Fmt) (b img : Nat), x.fresh = false → x.putRow .side row f b img = .ok y →
     x.marked < 8 ∧ y.marked = x.marked + 1 ∧ y.disabled = x.disabled ++ [row] ∧ (∀ r ∈ x.disabled, r < row) ∧
     Tbl.find? y.side x.marked = some (BitVec.ofNat 1024 img) ∧
     Tbl.find? y.rows row = some { fmt := f, bits := 0 } ∧ (∀ r, r ≠ row → Tbl.find? y.rows r = Tbl.find? x.rows r))) ∧
  (∀ (c : At) (s : State) (am as : Fin 16) (sm ss : Fin 32), CanIssue s c 3 → Unregulated s c.core.val →
     let n := c.core.val
     let km := (opS s c sm).toNat % 2 ^ 32
     let ks := (opS s c ss).toNat % 2 ^ 32
     let a1 := (opA s c am).toNat
     let a2 := (opA s c as).toNat
     (s.dev.core n).mq = [] → (s.dev.core n).stream = none → (s.dev.core n).feedSrc = [] →
     km % 32 = 0 → (s.dev.core n).feedMain.length + km ≤ 65536 → (s.dev.core n).feedSide.length + ks ≤ 16384 →
     LoadOk s a1 km 1 → LoadOk s a2 ks 1 →
     Completes (.wfill c am as sm ss) s (fun t =>
       Loaded s t c (fun k => { k with
         feedMain := k.feedMain ++ s.dev.bytes (agentCore n) a1 km
         feedSide := k.feedSide ++ s.dev.bytes (agentCore n) a2 ks })))

/-- R167, R168, R211, R212, R214, R218: WGATHER reads its descriptor and writes the tile of every selected array into its shadow
set; which input element it takes for a reduction index and a position; an empty output writes nothing. Model's own readings in
it: log entry 12. -/
def Obligations.GatherTilesAndElements : Prop :=
  (∀ (c : At) (s : State) (am : BitVec 4) (aa : Fin 16) (sp st : Fin 32) (g : Gather), CanIssue s c 3 →
     (s.dev.core c.core.val).swapQueued am = false → (s.dev.core c.core.val).drains = [] →
     let n := c.core.val
     let a := (opA s c aa).toNat
     let rows := if g.fmt.fourCell then 64 else 128
     let i0 := rows * (g.ktile + (opS s c st).toNat % 2 ^ 32)
     let pbase := g.p0 + (opS s c sp).toNat % 2 ^ 32
     let np := g.oh.toNat * g.ow.toNat
     inCore n a = true → a % 64 = 0 → s.dev.poisoned a 64 = none →
     readGather (s.dev.bytes (agentCore n) a 64) a = .ok g →
     (g.oh ≤ 0 ∨ g.ow ≤ 0 →
       Completes (.wgather c am aa sp st) s (fun t => Loaded s t c (fun k => k.setSticky k.ord 1))) ∧
     (0 < g.oh → 0 < g.ow → am = 0 → Completes (.wgather c am aa sp st) s (fun t => Loaded s t c (fun k => k))) ∧
     (0 < g.oh → 0 < g.ow → am ≠ 0 → g.addresses s.dev n g.ow.toNat np i0 pbase (arrays am).length = .ok () →
       g.outlEn = false → ∀ e : Core,
       g.fillAll s.dev n g.ow.toNat np i0 pbase 0 0 [] ((List.range (arrays am).length).zip (arrays am)) (s.dev.core n) = .ok e →
       Completes (.wgather c am aa sp st) s (fun t => Loaded s t c (fun k => { k with sets := e.sets }))) ∧
     (0 < g.oh → 0 < g.ow → am ≠ 0 → g.addresses s.dev n g.ow.toNat np i0 pbase (arrays am).length = .ok () →
       g.outlEn = true → s.dev.outStray n g.outlOff = false → ∀ (so stride : Nat) (l : List (Nat × Nat)) (e : Core),
       s.dev.outliers n g.outlOff i0 rows = .ok (so, stride, l) →
       g.fillAll s.dev n g.ow.toNat np i0 pbase so stride l ((List.range (arrays am).length).zip (arrays am)) (s.dev.core n) = .ok e →
       Completes (.wgather c am aa sp st) s (fun t => Loaded s t c (fun k => { k with sets := e.sets })))) ∧
  ((∀ inp lo hi k st d : Nat, 0 < st → 0 < k →
     outSize inp lo hi d k st = Int.fdiv ((inp : Int) + lo + hi - d * (k - 1) - 1) st + 1) ∧
   (∀ (g : Gather) (d : Dev) (n ow np i p : Nat), g.c * g.kh * g.kw ≤ i ∨ np ≤ p → g.element d n ow np i p = .ok 0) ∧
   (∀ (g : Gather) (d : Dev) (n ow np i p : Nat), i < g.c * g.kh * g.kw → p < np →
     let iy : Int := ((p / ow * g.sy + i / (g.c * g.kw) * g.dy : Nat) : Int) - g.padT
     let ix : Int := ((p % ow * g.sx + i / g.c % g.kw * g.dx : Nat) : Int) - g.padL
     (0 ≤ iy → iy < g.inH → 0 ≤ ix → ix < g.inW →
       g.element d n ow np i p = g.input d n iy.toNat ix.toNat (g.c0 + i % g.c)) ∧
     (iy < 0 ∨ g.inH ≤ iy ∨ ix < 0 ∨ g.inW ≤ ix →
       (g.padmode = 0 → g.element d n ow np i p = .ok 0) ∧
       (g.padmode = 1 → g.element d n ow np i p =
         g.input d n (clampIdx iy (g.inH - 1)) (clampIdx ix (g.inW - 1)) (g.c0 + i % g.c)) ∧
       (g.padmode = 2 → g.element d n ow np i p = .ok g.padval))))

/-- R172: STS stores the low bytes of sB, VST the governed elements of vB, VSCT its words at scattered addresses of the
core's own memory; no other byte changes.
Model's own readings in it: log entries 12, 15 and 155. -/
def Obligations.StoresOfRegisters : Prop :=
  ∀ (c : At) (s : State) (aa : Fin 16), CanIssue s c 4 → Unregulated s c.core.val →
    (∀ (sb : Fin 32) (z : Fin 4) (imm : BitVec 23),
      let a := (((opA s c aa).toNat + imm.toInt) % 2 ^ 48).toNat
      let n := 2 ^ z.val
      s.dev.firstBad a n = none → a % n = 0 → StoreFree s c [(a, n)] →
      Completes (.sts c sb aa z imm) s (fun t => Stored s t c (fun k => k) ∧
        (∀ i, i < n → t.dev.byte (a + i) = BitVec.ofNat 8 ((opS s c sb).toNat / 256 ^ i)) ∧ SameOutside s t a n ∧
        wrBytes t = (wrBytes s + lpUnits s.dev a n) % 2 ^ 64)) ∧
    (∀ (vb : Fin 32) (p : Fin 8) (pen : Bool) (w : StW) (imm : BitVec 19) (x : VReg) (m : BitVec 512),
      let a := (((opA s c aa).toNat + 64 * imm.toInt) % 2 ^ 48).toNat
      let k := stwBytes w
      let on := fun i => pen = false ∨ m.getLsbD (i / k) = true
      opV s c vb = some x → (pen = true → opP s c p = some m) → s.dev.firstBad a 512 = none → a % 64 = 0 →
      StoreFree s c [(a, 512)] →
      Completes (.vst c vb aa p pen w imm) s (fun t => Stored s t c (fun k => k) ∧
        (∀ i, i < 512 → on i → t.dev.byte (a + i) = BitVec.ofNat 8 (x.toNat / 256 ^ i)) ∧
        (∀ i, i < 512 → ¬ on i → t.dev.byte (a + i) = s.dev.byte (a + i)) ∧ SameOutside s t a 512)) ∧
    (∀ (vb vc : Fin 32) (x idx : VReg), opV s c vb = some x → opV s c vc = some idx →
      let a := fun i => (((opA s c aa).toNat + 4 * sgn 32 (elem 32 i idx)) % 2 ^ 48).toNat
      (∀ i, i < 128 → inCore c.core.val (a i) = true ∧ a i % 4 = 0) →
      StoreFree s c ((List.range 128).map (fun i => (a i, 4))) →
      Completes (.vsct c vb aa vc) s (fun t => Stored s t c (fun k => k) ∧
        (∀ i j, i < 128 → j < 4 → (∀ h, i < h → h < 128 → a h ≠ a i) →
          t.dev.byte (a i + j) = BitVec.ofNat 8 (elem 32 i x / 256 ^ j)) ∧
        (∀ b, (∀ i, i < 128 → b < a i ∨ a i + 4 ≤ b) → t.dev.byte b = s.dev.byte b)))

/-- R46, R163: with the matrix slot idle, MSWAP exchanges the sets of the selected arrays, MCLR sets entries to 0 with their
tag, MARD reads and MAWR writes the 64 columns of one entry, unchanged.
Model's own readings in it: log entries 12, 13, 151 and 152. -/
def Obligations.MatrixSwapClearReadWrite : Prop :=
  ∀ (c : At) (s : State), MatrixIdle s c →
    let n := c.core.val
    (∀ am : BitVec 4, (s.dev.core n).rowPending = false → Completes (.mswap c am) s (fun t => ∃ sets : Tbl CellSet,
      MatrixIssued s t c (fun k => { k with active := k.active ^^^ am, sets := sets }) ∧
      (∀ a, a < 4 → (t.dev.core n).shadowSet a =
        (if bit am.toNat a then { (s.dev.core n).activeSet a with fresh := true } else (s.dev.core n).shadowSet a)) ∧
      (∀ a, a < 4 → (t.dev.core n).activeSet a =
        (if bit am.toNat a then (s.dev.core n).shadowSet a else (s.dev.core n).activeSet a)))) ∧
    (∀ (am : BitVec 4) (ent : Fin 1024) (sn : Fin 32) (fp : Bool),
      let k := (opS s c sn).toNat % 2 ^ 32
      1 ≤ k → ent.val + k ≤ 1024 →
      Completes (.mclr c am ent sn fp) s (fun t => MatrixAcc s t c ∧
        ∀ a e, a < 4 → e < 1024 → t.dev.accEntry n a e =
          if bit am.toNat a ∧ ent.val ≤ e ∧ e < ent.val + k then { fp := fp, cols := 0, open_ := true }
          else s.dev.accEntry n a e)) ∧
    (∀ (arr : Fin 4) (ent : Fin 1024) (vd : Fin 32) (half : Bool),
      Completes (.mard c arr ent vd half) s (fun t => ∃ (y : VReg) (acc : Tbl AccEntry),
        MatrixIssued s t c (fun k => { putV vd y k with acc := acc }) ∧
        (∀ i, i < 128 → elem 32 i y =
          if (half = true ↔ 64 ≤ i) then (s.dev.accEntry n arr.val ent.val).col (i % 64)
          else elem 32 i ((Tbl.find? (s.dev.core n).v vd.val).getD 0)) ∧
        ∀ a e, a < 4 → e < 1024 → (t.dev.accEntry n a e).fp = (s.dev.accEntry n a e).fp ∧
          (t.dev.accEntry n a e).cols = (s.dev.accEntry n a e).cols)) ∧
    (∀ (arr : Fin 4) (ent : Fin 1024) (va : Fin 32) (half fp : Bool) (x : VReg), opV s c va = some x →
      Completes (.mawr c arr ent va half fp) s (fun t => MatrixAcc s t c ∧
        ∀ a e, a < 4 → e < 1024 →
          (a ≠ arr.val ∨ e ≠ ent.val → t.dev.accEntry n a e = s.dev.accEntry n a e) ∧
          (a = arr.val → e = ent.val → (t.dev.accEntry n a e).fp = fp ∧
            ∀ i, i < 64 → (t.dev.accEntry n a e).col i = elem 32 (if half then 64 + i else i) x)))

/-- R161, R170: an MSTREAM whose checks pass issues and its stream starts: fed from the queue it waits while the queue lacks a
vector, from memory its vectors enter one after the other; a wrong count halts with COUNT_RANGE, a range beyond the bank with
ARRAY_STATE. Model's own readings in it: log entries 12 and 13. -/
def Obligations.MatrixStreamStartsOrHalts : Prop :=
  (∀ (c : At) (s : State) (am : BitVec 4) (add outl feed : Bool) (ent : Fin 1024) (sv se : Fin 32) (ad : Fin 16) (st : Stream)
       (mode : LaneMode),
     MatrixIdle s c →
     let n := c.core.val
     let v := (opS s c sv).toNat % 2 ^ 32
     let base := ent.val + (opS s c se).toNat % 2 ^ 32
     1 ≤ v → base + v ≤ 1024 →
     let e : MEntry :=
       { ord := (s.dev.core n).ord, pos := s.dev.curPos n, op := .mstream am add outl feed base v (opA s c ad) }
     let queued := s.dev.updCore n (fun k => { k with
       mq := [e], cur := k.cur.map (fun b => { b with queued := true }) })
     queued.startStream n e am add outl feed base v (opA s c ad) = .ok st → laneMode st.afmt st.wfmt = some mode →
     st.base = base ∧ st.v = v ∧ st.j = 0 ∧ st.amask = am ∧ st.add = add ∧ st.outl = outl ∧ st.feed = feed ∧
     st.ord = e.ord ∧ st.pos = e.pos ∧
     (feed = true → (s.dev.core n).feedMain.length < mainBytes st.wfmt →
       Completes (.mstream c am add outl feed ent sv ad se) s (fun t =>
         MatrixIssued s t c (fun k => { k with stream := some st }))) ∧
     (feed = false → ∀ d : Dev,
       vectorsEnter n v ((queued.updCore n (fun k => { k with
         stream := some st, mq := []
         cur := (s.dev.core n).cur.map (fun b => { b with queued := true, issued := b.issued ||| 4#6 }) })).issued n) = some d →
       Completes (.mstream c am add outl feed ent sv ad se) s (fun t => t = after s d ∧ OnlyCores s t))) ∧
  (∀ (c : At) (s : State) (am : BitVec 4) (add outl feed : Bool) (ent : Fin 1024) (sv se : Fin 32) (ad : Fin 16),
     MatrixIdle s c →
     let v := (opS s c sv).toNat % 2 ^ 32
     let base := ent.val + (opS s c se).toNat % 2 ^ 32
     (v = 0 ∨ 1024 < v → Completes (.mstream c am add outl feed ent sv ad se) s (fun t =>
       t = after s (s.dev.haltGang c.core.val .countRange 2 v (s.dev.curPos c.core.val)))) ∧
     (1 ≤ v → v ≤ 1024 → 1024 < base + v → Completes (.mstream c am add outl feed ent sv ad se) s (fun t =>
       t = after s (s.dev.haltGang c.core.val .arrayState 2 0 (s.dev.curPos c.core.val)))))

/-- R53, R54, R122, R186: a vector's results set an entry's tag and columns, where no fault corrupts them; an INT32 result is exact
and then wraps, and one outside INT32 sets ACC_WRAP; an ADD into an entry of another tag, or one with an uncorrectable word, is
not made, and a SET of all columns clears that word.
Model's own readings in it: log entries 12 and 160. -/
def Obligations.AccumulatorWrites : Prop :=
  ∀ (d : Dev) (n ord arr ent : Nat) (add fp : Bool) (xs : List Incoming), xs.length = 64 → (d.core n).flips = [] →
    let e := d.accEntry n arr ent
    let ecc := (d.core n).accBad.contains (accKey arr ent)
    (add = true → ecc = true → d.accWrite n ord arr ent add fp xs = .ecc) ∧
    (add = true → ecc = false → e.fp ≠ fp → d.accWrite n ord arr ent add fp xs = .tag) ∧
    (add = false ∨ (ecc = false ∧ e.fp = fp) → ∃ d' : Dev, d.accWrite n ord arr ent add fp xs = .ok d' ∧
      d' = { d with cores := d'.cores } ∧ (d'.accEntry n arr ent).fp = fp ∧ (d'.accEntry n arr ent).open_ = true ∧
      (d'.core n).accBad.contains (accKey arr ent) = false ∧
      (∀ a f, a * 1024 + f ≠ arr * 1024 + ent → d'.accEntry n a f = d.accEntry n a f) ∧
      (∀ i x, xs[i]? = some (.int x) → (d'.accEntry n arr ent).col i =
        (((if add then sgn 32 (e.col i) else 0) + x) % 2 ^ 32).toNat) ∧
      (∀ i x, xs[i]? = some (.fp x) → (d'.accEntry n arr ent).col i =
        (if add then ((fp32 (BitVec.ofNat 32 (e.col i))).fadd x).code32 else x.code32).toNat) ∧
      ((d'.core n).sticky.getLsbD 0 = ((d.core n).sticky.getLsbD 0 ||
        (List.range 64).any (fun i => match xs[i]? with
          | some (.int x) => decide ((if add then sgn 32 (e.col i) else 0) + x < -2 ^ 31 ∨
              2 ^ 31 ≤ (if add then sgn 32 (e.col i) else 0) + x)
          | _ => false))))

/-- R49, R173, R174: a DRAIN whose checks pass writes the value of every column and the block shifts, and nothing else in memory;
beside them it changes its core's argmax state, statistics slots and conversion flags, and its entries count as drained. One
whose entries a stream is still to write waits in the drain path, without holding its bundle. R175: STATST stores statistics
slots.
Model's own readings in it: log entries 12, 15, 47, 48, 49, 150 and 160. -/
def Obligations.DrainsAndStatistics : Prop :=
  ∀ (c : At) (s : State), CanIssue s c 4 → Unregulated s c.core.val → s.dev.poison = [] →
    let n := c.core.val
    (∀ (am : BitVec 4) (ent : Fin 1024) (sn : Fin 32) (ad ao : Fin 16) (stats first last : Bool) (p : DrainJob),
      s.dev.drainPlan n (s.dev.core n).operands am ent sn ad ao stats first last = .ok p →
      (s.dev.core n).mq = [] → (s.dev.core n).feedSrc = [] → (s.dev.core n).accBad = [] → (s.dev.core n).loadPending = false →
      (∀ st : Stream, (s.dev.core n).stream = some st → (s.dev.core n).accPending p = true → st.feed = true →
        (laneMode st.afmt st.wfmt).isSome = true → (s.dev.core n).feedMain.length < mainBytes st.wfmt →
        Completes (.drain c am ent sn ad ao stats first last) s (fun t => Issued s t c 4 (fun k => { k with drains := [p] }))) ∧
      ((s.dev.core n).stream = none →
      let all := p.sel.map (fun a => (a, s.dev.drainArray n p a))
      let w := p.writes n all
      Completes (.drain c am ent sn ad ao stats first last) s (fun t => ∃ (arg : Tbl ArgCol) (st : Tbl StatSlot) (fl : BitVec 6)
          (acc : Tbl AccEntry),
        Stored s t c (fun k => { k with arg := arg, stats := st, convFlags := k.convFlags ||| fl, acc := acc }) ∧
        (∀ a e, a < 4 → e < 1024 → (t.dev.accEntry n a e).fp = (s.dev.accEntry n a e).fp ∧
          (t.dev.accEntry n a e).cols = (s.dev.accEntry n a e).cols ∧
          (∀ x, Tbl.find? acc (accKey a e) = some x →
            x.open_ = ((s.dev.accEntry n a e).open_ && !(p.sel.contains a && decide (p.b ≤ e ∧ e < p.b + p.n))))) ∧
        (p.x.arg = false → arg = (s.dev.core n).arg) ∧ (stats = false → st = (s.dev.core n).stats) ∧
        (p.last = false → w.Pairwise (fun e f => e.1 + e.2.length ≤ f.1 ∨ f.1 + f.2.length ≤ e.1) →
          ∀ e ∈ w, ∀ i b, e.2[i]? = some b → t.dev.byte (e.1 + i) = b) ∧
        (∀ a, (∀ e ∈ w, a < e.1 ∨ e.1 + e.2.length ≤ a) →
          (p.last = false ∨ ∀ r col, r < p.sel.length → col < p.x.ncol →
            a < coreAddr n (p.x.argOff + 8 * (64 * r + col)) ∨ coreAddr n (p.x.argOff + 8 * (64 * r + col)) + 8 ≤ a) →
          t.dev.byte a = s.dev.byte a) ∧
        (p.last = true → ∀ r col a, p.sel[r]? = some a → col < p.x.ncol →
          let x := Tbl.getD arg (argKey a col) {}
          leNat (t.dev.bytes (agentCore n) (coreAddr n (p.x.argOff + 8 * (64 * r + col))) 4) =
            if x.have_ then x.idx % 65536 else 0xFFFF)))) ∧
    (∀ (slot : Fin 1024) (sn : Fin 32) (aa : Fin 16),
      let k := (opS s c sn).toNat
      let a := (opA s c aa).toNat
      1 ≤ k → slot.val + k ≤ 1024 → s.dev.firstBad a (16 * k) = none → a % 16 = 0 → StoreFree s c [(a, 16 * k)] →
      Completes (.statst c slot sn aa) s (fun t => Stored s t c (fun k => k) ∧ SameOutside s t a (16 * k) ∧
        ∀ i, i < k →
          let x : StatSlot := Tbl.getD (s.dev.core n).stats (slot.val + i) {}
          leNat (t.dev.bytes (agentCore n) (a + 16 * i) 4) = x.sse.toNat ∧
          leNat (t.dev.bytes (agentCore n) (a + 16 * i + 4) 4) = x.ssv.toNat ∧
          leNat (t.dev.bytes (agentCore n) (a + 16 * i + 8) 4) = x.count % 2 ^ 32 ∧
          leNat (t.dev.bytes (agentCore n) (a + 16 * i + 12) 4) = x.clip % 2 ^ 32))

/-- R108, R109, R114, R136: a bundle whose block is cached is broadcast to every member's queue; a block that is not cached is a
miss, and the fill puts it into the leader's cache as memory holds it. Model's own readings in it: log entries 13 and 18. -/
def Obligations.BundleBroadcastAndCacheFill : Prop :=
  (∀ (c : At) (s : State) (j : Job), Live s → c.ph = {} → MayFetch s c.core.val j →
     let l := c.core.val
     let pc := pcOf j.tagged j.fetch
     pc < j.codeLen →
     (Tbl.find? (s.dev.core l).icache (j.code + pc / 256 * 256) = none →
       Completes (.bundleFetch c) s (fun t =>
         t = after s (s.dev.setJob l { j with miss := some (j.code + pc / 256 * 256) }))) ∧
     (∀ (b : BitVec 2048) (tag : Word) (valid : Bool), Tbl.find? (s.dev.core l).icache (j.code + pc / 256 * 256) = some b →
       (j.tagged = true → tagLineOk (blockLine b 0) (pc / 256) = true) → s.dev.breakpoint l j pc = none →
       (tag = if j.tagged then (blockLine b 0).extractLsb' (32 * (pc / 32 % 8)) 32 else 0) →
       (valid = (!j.tagged || (blockLine b 0).getLsbD (8 + (pc / 32 % 8 - 1)))) →
       Completes (.bundleFetch c) s (fun t => OnlyGang s t ∧ OtherJobs s t l ∧
         let q : QBundle := { idx := j.fetch, bits := blockLine b (pc / 32 % 8), tag := tag, valid := valid }
         (∀ m, t.dev.core m = if m ∈ j.members then { s.dev.core m with iq := (s.dev.core m).iq ++ [q] } else s.dev.core m) ∧
         t.dev.job? l = some { j with
           fetch := j.fetch + 1
           hold := isControl q.bits || (s.dev.core l).loops.any (fun x => decide (x.last = j.fetch)) })) ∧
     (∀ (b : BitVec 2048) (k : Nat), Tbl.find? (s.dev.core l).icache (j.code + pc / 256 * 256) = some b → j.tagged = false →
       s.dev.breakpoint l j pc = some k → s.dev.allDrained j = true →
       Completes (.bundleFetch c) s (fun t => t = after s (s.dev.haltGang l .breakpoint 15 k (j.fetch, 0))))) ∧
  (∀ (c : At) (s : State) (j : Job) (blk : Nat), Live s → c.ph = {} → s.dev.job? c.core.val = some j → j.miss = some blk →
     s.dev.poisoned blk 256 = none → (s.dev.core c.core.val).icache.length < 512 →
     Completes (.icacheFill c) s (fun t => OtherJobs s t c.core.val ∧ t.dev.job? c.core.val = some { j with miss := none } ∧
       (∀ m, t.dev.core m = { s.dev.core m with icache := (t.dev.core m).icache }) ∧
       (∀ m a, Tbl.find? (t.dev.core m).icache a =
         if m = c.core.val ∧ a = blk then some (BitVec.ofNat 2048 (loaded s c blk 256))
         else Tbl.find? (s.dev.core m).icache a) ∧
       rdBytes t = (rdBytes s + lpUnits s.dev blk 256) % 2 ^ 64 ∧
       (∀ o, ¬ trafficRegs.contains o → t.dev.reg o = s.dev.reg o) ∧ t.dev.mem = s.dev.mem))

/-- R108, R111 to R113, R116, R129: the next bundle goes into issue with the registers as the earlier bundles left them, and
what waits in the core runs on, or it halts at its decode checks; a bundle whose slots have all issued retires, and the
innermost loop counts down at the end of its body; an operation that the bundle in issue on its core does not hold changes
nothing. Model's own readings in it: log entries 44 and 50. -/
def Obligations.BundleDecodeAndRetirement : Prop :=
  (∀ (c : At) (s : State) (l : Nat) (j : Job) (q : QBundle) (rest : List QBundle), Live s → c.ph = {} →
     let n := c.core.val
     s.dev.jobOf n = some (l, j) → s.dev.mayDecode n l j = true → (s.dev.core n).iq = q :: rest →
     (q.valid = true → bundleChk q.bits = none →
       Completes (.bundleDecode c) s (fun t => t = after s ((s.dev.setCore n { s.dev.core n with
         iq := rest
         older := (s.dev.core n).older ++ (s.dev.core n).cur.toList
         cur := some { q := q, issued := BitVec.ofNat 6 (nopMask q.bits), view := (s.dev.core n).view }
         taken := false, branchTo := none, waiting := none, disarm := none }).run n) ∧
         ((s.dev.core n).mq = [] → (s.dev.core n).stream = none → (s.dev.core n).drains = [] → (s.dev.core n).feedSrc = [] →
           OnlyCores s t ∧ (∀ m, m ≠ n → t.dev.core m = s.dev.core m) ∧
           (t.dev.core n).cur = some { q := q, issued := BitVec.ofNat 6 (nopMask q.bits), view := (s.dev.core n).view }))) ∧
     (q.valid = false → Completes (.bundleDecode c) s (fun t =>
       t = after s (s.dev.haltGang n .tagLine 15 0 (q.idx, q.tag)))) ∧
     (∀ r k aux, q.valid = true → bundleChk q.bits = some (r, k, aux) → Completes (.bundleDecode c) s (fun t =>
       t = after s (s.dev.haltGang n r k aux (q.idx, q.tag))))) ∧
  (∀ (c : At) (s : State) (l : Nat) (j : Job) (b : InFlight), Live s → c.ph = {} →
     let n := c.core.val
     RunsIn s n l j → NoStop s l j → TrailOff s n → (s.dev.core n).older = [] → (s.dev.core n).cur = some b → b.issued = 63#6 →
     let k := s.dev.core n
     let outer := k.loops.dropLast
     let d := k.loops.length - 1
     (k.taken = true ∨ k.loops.all (fun x => decide (x.last ≠ b.q.idx)) = true →
       Completes (.bundleRetire c) s (fun t => OnlyGang s t ∧ OtherJobs s t l ∧
         (∀ m, m ≠ n → t.dev.core m = s.dev.core m) ∧
         t.dev.core n = { k with cur := none, branchTo := none, taken := false, retired := k.retired + 1,
                                 next := k.branchTo.getD (b.q.idx + 1) })) ∧
     (∀ x : Loop, k.taken = false → k.loops.getLast? = some x → x.last = b.q.idx → 1 < (Tbl.getD k.lc d 0).toNat →
       Completes (.bundleRetire c) s (fun t => OnlyGang s t ∧
         t.dev.core n = { k with cur := none, branchTo := none, taken := false, retired := k.retired + 1, next := x.first,
                                 lc := Tbl.set k.lc d (Tbl.getD k.lc d 0 - 1) })) ∧
     (∀ x : Loop, k.taken = false → k.loops.getLast? = some x → x.last = b.q.idx → (Tbl.getD k.lc d 0).toNat ≤ 1 →
       outer.all (fun x => decide (x.last ≠ b.q.idx)) = true →
       Completes (.bundleRetire c) s (fun t => OnlyGang s t ∧
         t.dev.core n = { k with cur := none, branchTo := none, taken := false, retired := k.retired + 1,
                                 next := k.branchTo.getD (b.q.idx + 1), loops := outer, lc := Tbl.set k.lc d 0 }))) ∧
  (∀ (i : Instr) (s : State), Live s → slotWord i ≠ none → s.dev.holds i = false → exec i s = .next (after s s.dev))

/-- R101, R132, R133, R176 to R180: SET and SETL, once the core's drains have written, raise host and local flags with release,
WAIT and WAITL issue on them; BAR issues when every member has reached it; PHASE sets the power phase; LAYER closes the layer of
a gang of one with its checkpoint once every accumulator entry written in it has been drained, END its job. Model's own readings
in it: log entries 12, 13, 51, 150 and 151. -/
def Obligations.FlagsBarriersAndLayers : Prop :=
  (∀ (c : At) (s : State) (l : Nat) (j : Job), CanIssue s c 5 → TrailOff s c.core.val → s.dev.jobOf c.core.val = some (l, j) →
     let n := c.core.val
     let quiet := fun (t : State) => (∀ m, m ≠ n → m ≠ l → t.dev.core m = s.dev.core m) ∧ OtherJobs s t l ∧
       (t.dev.core n).hasIssued 5 = (s.dev.core n).cur.isSome ∧ t.dev.mem = s.dev.mem ∧ t.dev.regs = s.dev.regs ∧
       t.dev.flags = s.dev.flags ∧
       ∀ e ∈ t.dev.stale, ∀ u ∈ e.2, u.who ≠ agentCore n
     (∀ sn : Fin 32, (opS s c sn).toNat < 262144 → j.sets.contains (opS s c sn).toNat = true → (s.dev.core n).drains = [] →
       Completes (.set c sn) s (fun t => quiet t ∧
         t.dev.job? l = some { j with heldFlags := j.heldFlags ++ [(opS s c sn).toNat] })) ∧
     (∀ sn : Fin 32, 262144 ≤ (opS s c sn).toNat ∨ j.sets.contains (opS s c sn).toNat = false →
       Completes (.set c sn) s (fun t =>
         t = after s (s.dev.haltGang n .flagUndeclared 5 (opS s c sn).toNat (s.dev.curPos n)))) ∧
     (∀ (lf : BitVec 8) (sr : Fin 32), (lf.toNat + (opS s c sr).toNat) % 2 ^ 64 < 256 → (s.dev.core n).drains = [] →
       Completes (.setl c lf sr) s (fun t => quiet t ∧
         ∃ j' : Job, t.dev.job? l = some j' ∧ j' = { j with flags := j'.flags } ∧
           ∀ i, Tbl.getD j'.flags i 0 =
             if i = (lf.toNat + (opS s c sr).toNat) % 2 ^ 64 then Tbl.getD j.flags i 0 + 1 else Tbl.getD j.flags i 0)) ∧
     (∀ sn : Fin 32, (opS s c sn).toNat < 262144 →
       s.dev.flag (opS s c sn).toNat = true ∨ j.heldFlags.contains (opS s c sn).toNat = true →
       Completes (.wait c sn) s (fun t => Issued s t c 5 (fun k => { k with waiting := none }))) ∧
     (∀ (lf : BitVec 8) (sr sn : Fin 32), (lf.toNat + (opS s c sr).toNat) % 2 ^ 64 < 256 →
       (opS s c sn).toNat % 2 ^ 32 ≤ (Tbl.getD j.flags ((lf.toNat + (opS s c sr).toNat) % 2 ^ 64) 0).toNat →
       Completes (.waitl c lf sr sn) s (fun t => Issued s t c 5 (fun k => { k with waiting := none })))) ∧
  (∀ (c : At) (s : State) (l : Nat) (j : Job), CanIssue s c 5 → TrailOff s c.core.val →
     let n := c.core.val
     s.dev.jobOf n = some (l, j) → j.members.Nodup → n ∈ j.members →
     ((∀ m ∈ j.members, m ≠ n → (s.dev.core m).atBar = true) → (∀ m ∈ j.members, (s.dev.core m).gang = some l) →
       Completes (.bar c) s (fun t =>
         (∀ m, m ∈ j.members → m ≠ l → t.dev.core m = { s.dev.core m with atBar := false }.mark 5) ∧
         (∀ m, m ∈ j.members → (t.dev.core m).atBar = false ∧ (t.dev.core m).hasIssued 5 = (s.dev.core m).cur.isSome) ∧
         (∀ m, m ∉ j.members → m ≠ l → t.dev.core m = s.dev.core m) ∧
         (∀ e ∈ t.dev.stale, ∀ u ∈ e.2, ∀ m ∈ j.members, u.who ≠ agentCore m) ∧
         t.dev.mem = s.dev.mem ∧ t.dev.jobs = s.dev.jobs ∧ t.dev.regs = s.dev.regs)) ∧
     ((∃ m ∈ j.members, m ≠ n ∧ (s.dev.core m).atBar = false) →
       Completes (.bar c) s (fun t => t = after s (s.dev.updCore n (fun k => { k with atBar := true })))) ∧
     (∀ num : BitVec 8, l = n → s.dev.pmMode ≠ 1 → s.dev.fld Reg.PM_MODE Fld.PM_MODE_MODE ≠ 1 →
       Completes (.phase c num) s (fun t => OtherJobs s t l ∧
         t.dev.job? l = some { j with phase := num.toNat, phaseOn := true, phSum := 0, phCnt := 0 } ∧
         (t.dev.core n).hasIssued 5 = (s.dev.core n).cur.isSome ∧ t.dev.pm = s.dev.pm ∧ t.dev.regs = s.dev.regs)) ∧
     (∀ num : BitVec 8, l ≠ n → Completes (.phase c num) s (fun t => Issued s t c 5 (fun k => k)))) ∧
  (∀ (c : At) (s : State) (j : Job) (b : InFlight), CanIssue s c 5 → TrailOff s c.core.val →
     let n := c.core.val
     let k := s.dev.core n
     s.dev.jobOf n = some (n, j) → j.members = [n] → NoStop s n j → j.stopAfter = none → k.cur = some b →
     b.issued ||| 32#6 = 63#6 → k.older = [] → k.mq = [] → k.stream = none → k.held = none → k.de.lists = [] →
     k.de.descs = [] → k.feedMain = [] → k.feedSide = [] → k.feedSrc = [] → k.drains = [] →
     (∀ nr : Bool, k.accDrained = false → Completes (.layer c nr) s (fun t =>
       t = after s (s.dev.updCore n (fun k => { k with atLayer := true, layerNr := nr, layerEnd := false })))) ∧
     (∀ nr : Bool, k.accDrained = true → k.loops.all (fun x => decide (x.last ≠ b.q.idx)) = true →
       Completes (.layer c nr) s (fun t =>
         let x := t.dev.core n
         x.layerCount = k.layerCount + 1 ∧ x.retired = k.retired + 1 ∧ x.v = [] ∧ x.p = [] ∧ x.tb = [] ∧ x.codebook = none ∧
         x.stats = [] ∧ x.arg = [] ∧ x.convFlags = 0 ∧ x.cur = none ∧ x.atLayer = false ∧
         x.s = k.s ∧ x.a = k.a ∧ x.lc = k.lc ∧ x.loops = k.loops ∧ x.sticky = k.sticky ∧ x.acc = k.acc ∧ x.sets = k.sets ∧
         x.chk.s = k.s ∧ x.chk.a = k.a ∧ x.chk.lc = k.lc ∧ x.chk.loops = k.loops ∧ x.chk.sticky = k.sticky ∧
         x.chk.layerCount = k.layerCount + 1 ∧ x.chk.retired = k.retired + 1 ∧ x.chk.next = x.next ∧
         t.dev.reg (Reg.CCn_STICKY n) = k.sticky.setWidth 32 ∧
         (∃ j' : Job, t.dev.job? n = some j' ∧ j'.heldFlags = [] ∧ j'.chkFlags = j.flags ∧ j'.flags = j.flags ∧ j'.nr = nr ∧
           j'.inReplay = false ∧ j'.state = .running) ∧
         (∀ f, f < 262144 → t.dev.flag f = (s.dev.flag f || j.heldFlags.contains f)) ∧
         (∀ e ∈ t.dev.stale, ∀ u ∈ e.2, u.who ≠ agentCore n ∧ u.who ≠ agentDe n))) ∧
     (k.accDrained = true → k.loops = [] → Completes (.end_ c) s (fun t =>
       t.dev.job? n = none ∧ (t.dev.core n).gang = none ∧ (t.dev.core n).halted = false ∧
       (∀ f, f < 262144 → t.dev.flag f = (s.dev.flag f || j.heldFlags.contains f)) ∧
       (∀ e ∈ (s.dev.queue j.queue).entries, e.count = j.count → e.result = none →
         ∃ e' ∈ (t.dev.queue j.queue).entries, e'.count = j.count ∧
           ∃ r : JobResult, e'.result = some r ∧ r.status = (if j.replays = 0 then 0 else 1) ∧ r.replays = j.replays))) ∧
     (k.loops ≠ [] → Completes (.end_ c) s (fun t =>
       t = after s (s.dev.haltGang n .endInLoop 5 k.loops.length (s.dev.curPos n)))))

/-- R193, R198: DMA submits a list to the core's engine and DWAIT issues once the completed count is reached; the engine fetches
up to 16 descriptors at a time and completes them in list order, while its gang is halted too (R201); the bytes of a completed
descriptor are visible to every agent (R22). Model's own readings in it: log entries 12, 13 and 54. -/
def Obligations.DmaSubmissionAndCompletion : Prop :=
  (∀ (c : At) (s : State), CanIssue s c 5 → TrailOff s c.core.val →
     let n := c.core.val
     (∀ (aa : Fin 16) (sn : Fin 32),
       let cnt := (opS s c sn).toNat
       let a := (opA s c aa).toNat
       1 ≤ cnt → cnt ≤ 4096 → inCore n a = true → inCore n (a + 64 * cnt - 1) = true → a % 64 = 0 →
       (s.dev.core n).de.lists.length < 64 → (s.dev.core n).fillPending = false →
       Completes (.dma c aa sn) s (fun t => Issued s t c 5 (fun k => { k with
         de := { k.de with lists := k.de.lists ++ [{ id := k.de.nextId, off := a - coreBase n, count := cnt, ord := k.ord,
                                                      pos := s.dev.curPos n }],
                           nextId := k.de.nextId + 1 }
         feedSrc := k.feedSrc ++ [.list k.de.nextId] }))) ∧
     (∀ (aa : Fin 16) (sn : Fin 32), (opS s c sn).toNat = 0 ∨ 4096 < (opS s c sn).toNat →
       Completes (.dma c aa sn) s (fun t =>
         t = after s (s.dev.haltGang n .countRange 5 (opS s c sn).toNat (s.dev.curPos n)))) ∧
     (∀ sn : Fin 32, (opS s c sn).toNat % 2 ^ 32 ≤ (s.dev.reg (Reg.CCn_DE_DONE n)).toNat →
       Completes (.dwait c sn) s (fun t => Issued s t c 5 (fun k => { k with waiting := none })))) ∧
  (∀ (c : At) (s : State), Live s → c.ph = {} → s.dev.issuing c.core.val = true → FeedQuiet s c.core.val →
     let n := c.core.val
     let e := (s.dev.core n).de
     (∀ l : DList, e.batches < 2 → e.lists.find? (fun l => decide (l.fetched < l.count)) = some l →
       let k := Nat.min 16 (l.count - l.fetched)
       s.dev.poisoned (coreAddr n (l.off + 64 * l.fetched)) (64 * k) = none →
       Completes (.dmaBatchFetch c) s (fun t => EngineWork s t c ∧ t.dev.mem = s.dev.mem ∧ t.dev.regs = s.dev.regs ∧
         (t.dev.core n).de = { e with
           nextSer := e.nextSer + k
           lists := e.lists.map (fun x => if x.id = l.id then { x with fetched := x.fetched + k } else x)
           descs := e.descs ++ (List.range k).map (fun i =>
             { ser := e.nextSer + i, list := l.id, idx := l.fetched + i, off := l.off + 64 * l.fetched + 64 * i,
               raw := s.dev.bytes (agentDe n) (coreAddr n (l.off + 64 * l.fetched + 64 * i)) 64 }) }))) ∧
  (∀ (c : At) (s : State), Live s → c.ph = {} → (s.dev.issuing c.core.val = true → FeedQuiet s c.core.val) →
     let n := c.core.val
     let e := (s.dev.core n).de
     (∀ (y : DDesc) (rest : List DDesc), e.descs = y :: rest → y.moved = true →
       let x := dmaFields y.raw
       Completes (.dmaDescComplete c) s (fun t =>
         (t.dev.core n).de.descs = rest ∧ (∀ b ∈ t.dev.stale, ∀ u ∈ b.2, ¬ (u.who = agentDe n ∧ u.ser = y.ser + 1)) ∧
         (t.dev.core n).de.lists = e.lists.filter (fun l => !(decide (l.id = y.list) && decide (y.idx + 1 = l.count))) ∧
         (∀ o, t.dev.reg o = if o = Reg.CCn_DE_DONE n then s.dev.reg o + 1 else s.dev.reg o) ∧ t.dev.mem = s.dev.mem ∧
         (∀ m, m ≠ n → t.dev.core m = s.dev.core m) ∧
         (x.flagEn = false → t.dev.jobs = s.dev.jobs) ∧
         (∀ l j, x.flagEn = true → s.dev.jobOf n = some (l, j) → ∃ j' : Job, t.dev.job? l = some j' ∧
           (x.flagHost = true → j' = { j with heldFlags := j.heldFlags ++ [x.flag] }) ∧
           (x.flagHost = false → j' = { j with flags := j'.flags } ∧
             Tbl.getD j'.flags x.flag 0 = Tbl.getD j.flags x.flag 0 + 1)))))

/-- R193 to R197, R199: one transfer of a COPY or GATHER moves at most 256 bytes, none across a 256-byte boundary of its
source; one of a FEED appends them to its lane; a NOP only ends. No other byte of memory changes. Descriptors start in list
order, and transfers of those that have started go on in any order (R198).
Model's own readings in it: log entries 54 and 57. -/
def Obligations.DmaTransfers : Prop :=
  ∀ (c : At) (s : State) (i : Fin 32) (y : DDesc) (src : Nat),
    let n := c.core.val
    let x := dmaFields y.raw
    let a := src + y.pos
    let k := Nat.min (x.len0 - y.pos) (256 - a % 256)
    let dst := x.rowDest y.row + y.pos
    let y' : DDesc := if y.pos + k < x.len0 then { y with started := true, pos := y.pos + k, src := src }
      else { y with started := true, pos := 0, row := y.row + 1, moved := decide (x.rows ≤ y.row + 1) }
    let moves := fun (t : State) => EngineWork s t c ∧
      (t.dev.core n).de.descs = (s.dev.core n).de.descs.map (fun z => if z.ser = y.ser then y' else z)
    let got := fun (j : Nat) => s.dev.see (agentDe n) (a + j) (serOf y.ser)
    (TransferReady s c i y 1 src → NoRival s n y.ser dst k → (∀ j, j < k → x.reads (dst + j) = false) →
      Completes (.dmaCopy ⟨c, i⟩ 1) s (fun t => moves t ∧ SameOutside s t dst k ∧ ∀ j, j < k → t.dev.byte (dst + j) = got j)) ∧
    (TransferReady s c i y 2 src → NoRival s n y.ser dst k →
      Completes (.dmaGather ⟨c, i⟩ 1) s (fun t => moves t ∧ SameOutside s t dst k ∧ ∀ j, j < k → t.dev.byte (dst + j) = got j)) ∧
    (TransferReady s c i y 3 src → (s.dev.core n).mayFeed y x k = true →
      Completes (.dmaFeed ⟨c, i⟩ 1) s (fun t => moves t ∧ t.dev.mem = s.dev.mem ∧
        (t.dev.core n).feedMain = (s.dev.core n).feedMain ++ (if x.side then [] else (List.range k).map got) ∧
        (t.dev.core n).feedSide = (s.dev.core n).feedSide ++ (if x.side then (List.range k).map got else []))) ∧
    (Live s → c.ph = {} → s.dev.issuing n = true → FeedQuiet s n → (s.dev.core n).de.toMove[i.val]? = some y → x.kind = 0 →
      ((s.dev.core n).de.descs.map (·.ser)).Nodup → (s.dev.core n).de.mayStart y = true →
      (y.started = false → dmaCheck y.raw (s.dev.declared n) = .ok ()) →
      Completes (.dmaNop ⟨c, i⟩) s (fun t => EngineWork s t c ∧ t.dev.mem = s.dev.mem ∧ t.dev.regs = s.dev.regs ∧
        (t.dev.core n).de.descs = (s.dev.core n).de.descs.map (fun z =>
          if z.ser = y.ser then { y with started := true, moved := true } else z)))

/-- R123, R125, R133, R135, R139, R325, R327, R332: a replay restores the checkpoint of a gang of one, and the fences then take
effect; HALT and RESUME stop and continue an armed gang; a Trail record that cannot be written is counted; the stall watchdog
counts, but not while the gang is halted or a member waits on an event flag, and halts at its limit.
Model's own readings in it: log entries 10, 53 and 58. -/
def Obligations.ReplayDebugAndStallWatchdog : Prop :=
  (∀ (leader : Fin 8) (s : State) (j : Job), Live s → (∀ n, n < 8 → TrailOff s n) → s.dev.job? leader.val = some j →
     j.state = .replaySetup → s.dev.canHost j = true → j.members = [leader.val] → j.haltAt = none →
     s.dev.bisect leader.val { j with skipCount := none } = none →
     let n := leader.val
     Completes (.replay leader) s (fun t =>
       let x := t.dev.core n
       let k := (s.dev.core n).chk
       x.s = k.s ∧ x.a = k.a ∧ x.lc = k.lc ∧ x.loops = k.loops ∧ x.sticky = k.sticky ∧ x.layerCount = k.layerCount ∧
       x.retired = k.retired ∧ x.next = k.next ∧ x.v = [] ∧ x.p = [] ∧ x.tb = [] ∧ x.cur = none ∧ x.iq = [] ∧
       x.acc = (s.dev.core n).acc.map (fun e => (e.1, { e.2 with open_ := false })) ∧ x.sets = (s.dev.core n).sets ∧
       x.chk = k ∧ x.hostedLogic = s.dev.logicHosted n ∧ x.hostedArrays = s.dev.arraysHosted n ∧
       (∀ m, m ≠ n → t.dev.core m = s.dev.core m) ∧
       (∃ j' : Job, t.dev.job? n = some j' ∧ j'.state = .running ∧ j'.inReplay = true ∧ j'.replays = j.replays + 1 ∧
         j'.flags = j.chkFlags ∧ j'.heldFlags = [] ∧ j'.fetch = k.next ∧ j'.hold = false) ∧
       t.dev.reg (Reg.CCn_DE_DONE n) = k.deDone ∧ t.dev.mem = s.dev.mem ∧ t.dev.flags = s.dev.flags)) ∧
  (∀ (p : Port) (core : Fin 8) (s : State), Live s →
     let n := core.val
     ((s.dev.port p).lost = false → s.dev.ownsDebug p n = false →
       Completes (.halt p core) s (fun t => t = after s (s.dev.raise (Reg.CCn_DBG_STATUS n) Fld.CCn_DBG_STATUS_WR_REJECT)) ∧
       Completes (.resume p core) s (fun t => t = after s (s.dev.raise (Reg.CCn_DBG_STATUS n) Fld.CCn_DBG_STATUS_WR_REJECT))) ∧
     (∀ (l : Nat) (j : Job), (s.dev.port p).lost = false → s.dev.ownsDebug p n = true → s.dev.jobOf n = some (l, j) →
       s.dev.armed n j.ctx = true → NoStop s l j →
       (j.state = .running →
         let stop := j.members.foldl (fun m i => Nat.max m ((s.dev.core i).retired.toNat + (s.dev.core i).inFlight)) 0
         (s.dev.standsAt j stop = false →
           Completes (.halt p core) s (fun t => t = after s (s.dev.setJob l { j with haltAt := some stop }))) ∧
         (s.dev.standsAt j stop = true →
           Completes (.halt p core) s (fun t =>
             let d := s.dev.setJob l { j with haltAt := some stop }
             t = after s (d.haltGang l .hostHalt 15 0 (d.oldest l))))) ∧
       (j.state = .debugHalt →
         Completes (.resume p core) s (fun t => OnlyGang s t ∧ OtherJobs s t l ∧
           (∀ m, m ∈ j.members → t.dev.core m = { s.dev.core m with halted := false }) ∧
           (∀ m, m ∉ j.members → t.dev.core m = s.dev.core m) ∧
           ∃ j' : Job, t.dev.job? l = some j' ∧ j' = { j with state := .running, haltAt := none, skipBkpt := j'.skipBkpt }))) ∧
     (∀ (r : BitVec 128) (rest : List (BitVec 128)), (s.dev.core n).trailHeld = r :: rest →
       Completes (.trailDrop core) s (fun t => (∀ o, t.dev.reg o =
           if o = Reg.CCn_TRAIL_DROPS n then s.dev.reg o + 1 else s.dev.reg o) ∧
         (∀ m, t.dev.core m = if m = n then { s.dev.core m with trailHeld := rest, trailLost := (s.dev.core m).trailLost + 1 }
           else s.dev.core m)))) ∧
  (∀ (leader : Fin 8) (cycles : Nat) (s : State) (j : Job), Live s → s.dev.job? leader.val = some j →
     (j.state ≠ .running ∨ (∃ n ∈ j.members, (s.dev.core n).waiting = some .flag) →
       Completes (.stallWatchdog leader cycles) s (fun t => t = after s s.dev)) ∧
     (j.state = .running → (∀ n ∈ j.members, (s.dev.core n).waiting ≠ some .flag) →
     let l := leader.val
     let k := (s.dev.core l).stall + cycles
     let lim := (s.dev.reg (Reg.CCn_STALL_LIMIT l)).toNat
     (lim = 0 ∨ k < lim → Completes (.stallWatchdog leader cycles) s (fun t =>
       t = after s (s.dev.updCore l (fun c => { c with stall := k })))) ∧
     (lim ≠ 0 → lim ≤ k → Completes (.stallWatchdog leader cycles) s (fun t =>
       let d := s.dev.updCore l (fun c => { c with stall := k })
       t = after s (d.haltGang l .stallWatchdog 15 0 (d.oldest l))))))

/-- R191, R202 to R205, R208: an access that a bucket denies is held and issues after a refill; bucket writes need SEM0; a scrub
pass counts its reads and REFRESH_X2 shows doubled refresh. Model's own readings in it: log entries 11, 13, 56, 57 and 157. -/
def Obligations.RegulatorAndMemoryController : Prop :=
  ((∀ (s : State) (n : Fin 8), Live s → s.dev.bwrPend = [] → s.dev.pm.metered = false → s.dev.ctxRate = [] →
     Completes .bucketRefill s (fun t =>
       (t.dev.core n.val).level = (if s.dev.bRate n.val = 0 then (s.dev.core n.val).level
         else Nat.min ((s.dev.core n.val).level + s.dev.bRate n.val) (100 * s.dev.bBurst n.val)) ∧
       t.dev.core n.val = { s.dev.core n.val with level := (t.dev.core n.val).level } ∧
       t.dev.ticks = s.dev.ticks + 1 ∧ t.dev.jobs = s.dev.jobs ∧ t.dev.mem = s.dev.mem)) ∧
   (∀ (s : State) (core : Fin 8) (cycles slot left : Nat), Live s → (s.dev.core core.val).held = some (slot, left) →
     s.dev.jobOf core.val = none → s.dev.pm.metered = false → FeedQuiet s core.val →
     let n := core.val
     let r := Nat.min 256 left
     Completes (.regulatedRequest core cycles) s (fun t =>
       (∀ o, t.dev.reg o = if o = Reg.CCn_BWR_HELD n then s.dev.reg o + BitVec.ofNat 32 cycles else s.dev.reg o) ∧
       (∀ m, m ≠ n → t.dev.core m = s.dev.core m) ∧
       (s.dev.bRate n ≠ 0 → 100 * r ≤ (s.dev.core n).level →
         t.dev.core n = { s.dev.core n with held := some (slot, left - r), level := (s.dev.core n).level - 100 * r }) ∧
       (s.dev.bRate n ≠ 0 → (s.dev.core n).level < 100 * r → t.dev.core n = s.dev.core n))) ∧
   (∀ (s : State) (p : Port) (core : Option (Fin 8)) (burst : Bool) (v : Word), Live s →
     let t := match core with
       | some n => n.val
       | none => 8 + s.dev.fld Reg.MC_BWR_CTX_SEL Fld.MC_BWR_CTX_SEL_CONTEXT
     let x := v.toNat % 2 ^ (if burst then 25 else 20)
     (s.dev.bucketRefused p t burst x = false →
       Completes (.bwrBucketWrite p core burst v) s (fun u =>
         u = after s { s.dev with bwrPend := s.dev.bwrPend ++ [(t, burst, x)] })) ∧
     (s.dev.bucketRefused p t burst x = true →
       Completes (.bwrBucketWrite p core burst v) s (fun u =>
         u = after s (s.dev.raise Reg.MC_BWR_STATUS Fld.MC_BWR_STATUS_WR_REJECT))) ∧
     (s.dev.holdsSem0 p = false → s.dev.bucketRefused p t burst x = true))) ∧
  (∀ s : State, Live s →
     Completes (.scrub []) s (fun t => t.dev.fld Reg.MC_STATUS Fld.MC_STATUS_SCRUB_DONE = 1 ∧
       rdBytes t = (rdBytes s + lpBytes s.dev.cap48) % 2 ^ 64 ∧ wrBytes t = wrBytes s ∧ t.dev.mem = s.dev.mem ∧
       t.dev.units = s.dev.units) ∧
     (∀ on : Bool, Completes (.doubledRefresh on) s (fun t =>
       t = after s (s.dev.setFld Reg.MC_STATUS Fld.MC_STATUS_REFRESH_X2 (b2n on)) ∧
       t.dev.fld Reg.MC_STATUS Fld.MC_STATUS_REFRESH_X2 = b2n on ∧
       ∀ o, o ≠ Reg.MC_STATUS → t.dev.reg o = s.dev.reg o)))

/-- R25 to R27, R30, R31: staging touches the writing port's area alone; CHECK and APPLY enter validation, which ends with OK or the
first failure; an accepted APPLY is the pending commit, which CANCEL and the timeout end without effect.
Model's own readings in it: log entries 10, 33, 34, 35 and 39. -/
def Obligations.StagingValidationAndCancel : Prop :=
  (∀ (s : State) (p : Port), Live s →
     (∀ (off : BitVec 25) (v : Word), isRws off.toNat = true →
       Completes (.stageWrite p off v) s (fun t => OnlyHost s t ∧ t.dev.regs = s.dev.regs ∧ t.dev.commit = s.dev.commit ∧
         t.dev.port p.other = s.dev.port p.other ∧
         t.dev.port p = { s.dev.port p with stage := (t.dev.port p).stage } ∧
         ∀ o, Tbl.find? (t.dev.port p).stage o =
           if o = off.toNat then some (v &&& rwsMask off.toNat) else Tbl.find? (s.dev.port p).stage o)) ∧
     Completes (.check p) s (fun t => t = after s (s.dev.updPort p (fun x => { x with checking := x.checking ++ [{ apply := false }] }))) ∧
     (∀ (mode : CommitMode) (cam : Fin 32),
       (s.dev.holdsSem0 p = true → s.dev.commit = none → (s.dev.port p).stage ≠ [] →
         Completes (.apply p mode cam) s (fun t => t = after s (s.dev.updPort p (fun x =>
           { x with checking := x.checking ++ [{ apply := true, mode := mode, cam := cam.val }] })))) ∧
       (s.dev.holdsSem0 p = false → Completes (.apply p mode cam) s (fun t =>
         OnlyHost s t ∧ commitCode t p = ccNO_SEM ∧ t.dev.ports = s.dev.ports ∧ t.dev.commit = s.dev.commit)) ∧
       (s.dev.holdsSem0 p = true → s.dev.commit ≠ none → Completes (.apply p mode cam) s (fun t =>
         OnlyHost s t ∧ commitCode t p = ccBUSY ∧ t.dev.ports = s.dev.ports ∧ t.dev.commit = s.dev.commit)) ∧
       (s.dev.holdsSem0 p = true → s.dev.commit = none → (s.dev.port p).stage = [] → Completes (.apply p mode cam) s (fun t =>
         OnlyHost s t ∧ commitCode t p = ccEMPTY ∧ t.dev.ports = s.dev.ports ∧ t.dev.commit = s.dev.commit))) ∧
     Completes (.discard p) s (fun t => OnlyHost s t ∧ (t.dev.port p).stage = [] ∧ commitCode t p = ccOK ∧
       t.dev.port p.other = s.dev.port p.other ∧ t.dev.commit = s.dev.commit) ∧
     Completes (.badCommand p) s (fun t => OnlyHost s t ∧ commitCode t p = ccBAD_COMMAND ∧ t.dev.ports = s.dev.ports ∧
       t.dev.commit = s.dev.commit)) ∧
  (∀ (s : State) (p : Port), Live s →
     (∀ rest, (s.dev.port p).checking = { apply := false } :: rest →
       (∀ x, (s.dev.cand p).verdict = some x → Completes (.validationDone p) s (fun t => OnlyHost s t ∧
         commitCode t p = x.1 ∧ (t.dev.port p).stage = (s.dev.port p).stage ∧ t.dev.commit = s.dev.commit)) ∧
       ((s.dev.cand p).verdict = none → Completes (.validationDone p) s (fun t => OnlyHost s t ∧
         commitCode t p = ccOK ∧ (t.dev.port p).checking = rest ∧ (t.dev.port p).stage = (s.dev.port p).stage ∧
         t.dev.commit = s.dev.commit))) ∧
     (∀ rest cam, (s.dev.port p).checking = { apply := true, mode := .immediate, cam := cam } :: rest →
       s.dev.holdsSem0 p = true → s.dev.commit = none → (s.dev.port p).stage ≠ [] → (s.dev.cand p).verdict = none →
       Completes (.validationDone p) s (fun t => OnlyHost s t ∧ commitCode t p = ccACCEPTED ∧
         (t.dev.port p).stage = [] ∧ (t.dev.port p).checking = rest ∧
         ∃ c : Pending, t.dev.commit = some c ∧ c.port = p ∧ c.mode = .immediate ∧ c.dirty = (s.dev.port p).stage)) ∧
     (∀ c : Pending, s.dev.commit = some c →
       (s.dev.holdsSem0 p = true → Completes (.commitCancel p) s (fun t => OnlyHost s t ∧ t.dev.commit = none ∧
         commitCode t .a = ccCANCELLED ∧ commitCode t .b = ccCANCELLED ∧ t.dev.ports = s.dev.ports)) ∧
       (s.dev.holdsSem0 p = false → Completes (.commitCancel p) s (fun t => OnlyHost s t ∧ t.dev.commit = some c ∧
         commitCode t p = ccNO_SEM)) ∧
       (c.timeout ≠ 0 → Completes .expired s (fun t => OnlyHost s t ∧ t.dev.commit = none ∧
         commitCode t c.port = ccEXPIRED ∧ t.dev.ports = s.dev.ports))))

/-- R28, R31: a due commit takes effect at one instant: it is no longer pending, the committing port reads OK, both ports read
the commit time and the counted sequence number, and every register of a commit of camera receivers holds its new value; a
commit that is not due stays pending.
Model's own readings in it: log entries 39 and 40. -/
def Obligations.CommitTakesEffectAtOnce : Prop :=
  ∀ (s : State) (c : Pending) (frame : Option (Fin 24)), Live s → s.dev.commit = some c →
    (c.due s.dev.time frame = true → (∀ e ∈ c.dirty, ∃ i, i < 12 ∧ e.1 = Reg.CAM_CSIi_CFG i) →
      c.dirty.Pairwise (fun e f => e.1 < f.1) → c.images = [] → (∀ n, n < 32 → (s.dev.str n).cur = none) →
      Completes (.commitTakesEffect frame) s (fun t => t.dev.commit = none ∧ commitCode t c.port = ccOK ∧
        (∀ e ∈ c.dirty, t.dev.reg e.1 = e.2) ∧
        (∀ p, t.dev.regP p Reg.GLB_APPLIED_TIME_LO = s.dev.time.setWidth 32 ∧
          t.dev.regP p Reg.GLB_APPLIED_TIME_HI = (s.dev.time >>> 32).setWidth 32 ∧
          t.dev.regP p Reg.GLB_COMMIT_SEQ = s.dev.regP p Reg.GLB_COMMIT_SEQ + 1) ∧
        t.dev.mem = s.dev.mem ∧ t.dev.jobs = s.dev.jobs)) ∧
    (c.due s.dev.time frame = false → Completes (.commitTakesEffect frame) s (fun t => t = after s s.dev)) ∧
    (c.mode = .immediate → c.due s.dev.time frame = true) ∧
    (c.mode = .atTime → (c.due s.dev.time frame = true ↔ c.time.toNat ≤ s.dev.time.toNat))

/-- R32, R33: TAKE latches the whole device at its capture edge for the port that wrote it; a TAKE during a capture is ignored;
the completed capture replaces the port's snapshot; a read through the window gives the latched value and sets the code.
Model's own readings in it: log entries 19, 20, 21 and 159. -/
def Obligations.SnapshotCommands : Prop :=
  ∀ (s : State) (p : Port), Live s →
    ((s.snap p).taking = none → Completes (.take p) s (fun t => (t.snap p).taking = some s.dev ∧
      (t.snap p).ready = (s.snap p).ready ∧ t.snap p.other = s.snap p.other ∧ snapCodeOf t p = 0x21 ∧
      t.dev = { s.dev with regs := t.dev.regs, ctr := s.dev.ctr + 1 })) ∧
    ((s.snap p).taking ≠ none → Completes (.take p) s (fun t => t = after s s.dev)) ∧
    (∀ d : Dev, (s.snap p).taking = some d → Completes (.snapReady p) s (fun t => (t.snap p).ready = some d ∧
      (t.snap p).taking = none ∧ t.snap p.other = s.snap p.other ∧ snapCodeOf t p = 0x22 ∧
      t.dev = { s.dev with regs := t.dev.regs, ctr := s.dev.ctr + 1 })) ∧
    (∀ d : Dev, (s.snap p).ready = some d → (s.snap p).taking = none →
      let off := (s.dev.regP p Reg.GLB_SNAP_ADDR).toNat
      let sel := s.dev.regP p Reg.GLB_SNAP_SEL
      Completes (.snapDataRead p) s (fun t => t.snap p = s.snap p ∧ t.snap p.other = s.snap p.other ∧
        t.dev.out = .regData p (if snapHolds off sel = true then d.standing p off sel else 0) :: s.dev.out ∧
        snapCodeOf t p = (if snapHolds off sel = true then 0x22 else 0x23)))

/-- R32: a port's complete snapshot changes only when its capture ends, when the port is lost or at a reset.
Model's own readings in it: log entry 19. -/
def Obligations.SnapshotsStayLatched : Prop :=
  ∀ (c : Instr) (s t : State) (p : Port), exec c s = .next t → c ≠ .snapReady p → c ≠ .heartbeatTimeout p → c ≠ .hostLinkDown p →
    c ≠ .warmReset → c ≠ .refclkLoss → (∀ b, c ≠ .coldReset b) → (∀ q k, c ≠ .hostReset q k) → (∀ b, c ≠ .supplyReset b) →
    (t.snap p).ready = (s.snap p).ready

/-- R8, R443, R444, R447, R448, R450: a bad BAR0 access has no effect; a read-to-clear read clears its bits; a _LO read latches
its _HI half; a _LO write changes the pending copy alone and a _HI write both halves; a write of 1 clears W1C bits. Model's own
readings in it: log entries 23, 24 and 26. -/
def Obligations.HostRegisterAccesses : Prop :=
  (∀ (s : State) (p : Port), Live s →
     Completes (.bar0BadAccess p) s (fun t => t = after s { s.dev with out := .unsupported p :: s.dev.out }) ∧
     (∀ (off : BitVec 25) (r : RegRow), regRow? off.toNat = some r → r.has .rc = true → foreignBlock p off.toNat = false →
       Completes (.rcRead p off) s (fun t =>
         t.dev.out = .regData p (s.dev.readReg p off.toNat) :: s.dev.out ∧
         t.dev.regP p off.toNat = s.dev.regP p off.toNat &&& ~~~ r.accMask .rc ∧
         (∀ k, k ≠ regKey p off.toNat → t.dev.word k = s.dev.word k) ∧ t.dev.mem = s.dev.mem)) ∧
     (∀ off : BitVec 25, isLo readPairs off.toNat = true → isInst (Reg.CPS_EVTe_STAMP_LO 0, 0x10, 9) off.toNat = false →
       Completes (.pairLoRead p off) s (fun t =>
         t.dev.out = .regData p (s.dev.standing p off.toNat 0) :: s.dev.out ∧
         Tbl.find? (t.dev.port p).latch off.toNat = some (s.dev.standing p (off.toNat + 4) 0) ∧
         t.dev.port p.other = s.dev.port p.other ∧ t.dev.regs = s.dev.regs))) ∧
  (∀ (s : State) (p : Port) (v : Word), Live s →
     (∀ off : BitVec 25, isLo writePairs off.toNat = true → foreignBlock p off.toNat = false →
       (ownerChecked off.toNat = true → (s.dev.port p).lost = false) → s.dev.writeOk p off.toNat v = true →
       Completes (.pairLoWrite p off v) s (fun t => t.dev.regs = s.dev.regs ∧
         Tbl.find? (t.dev.port p).pairLo off.toNat = some (v, true) ∧ t.dev.port p.other = s.dev.port p.other ∧
         t.dev.mem = s.dev.mem)) ∧
     (∀ lo : Word, Tbl.find? (s.dev.port p).pairLo Reg.GLB_APPLY_TIME_LO = some (lo, true) →
       Completes (.pairHiWrite p (BitVec.ofNat 25 Reg.GLB_APPLY_TIME_HI) v) s (fun t =>
         t.dev.regP p Reg.GLB_APPLY_TIME_LO = lo ∧ t.dev.regP p Reg.GLB_APPLY_TIME_HI = v ∧
         Tbl.find? (t.dev.port p).pairLo Reg.GLB_APPLY_TIME_LO = some (lo, false) ∧
         t.dev.port p.other = s.dev.port p.other ∧
         (∀ k, k ≠ regKey p Reg.GLB_APPLY_TIME_LO → k ≠ regKey p Reg.GLB_APPLY_TIME_HI → t.dev.word k = s.dev.word k))) ∧
     (∀ off : BitVec 25, regRow? off.toNat = none → Completes (.registerWrite p off v) s (fun t => t = after s s.dev)) ∧
     Completes (.registerWrite p (BitVec.ofNat 25 Reg.PM_EVENT) v) s (fun t =>
       t.dev.reg Reg.PM_EVENT = s.dev.reg Reg.PM_EVENT &&& ~~~ (v &&& (match regRow? Reg.PM_EVENT with
         | some r => r.accMask .w1c
         | none => 0)) ∧
       ∀ o, o ≠ Reg.PM_EVENT → t.dev.reg o = s.dev.reg o))

/-- R21, R283, R296, R300, R446: a BAR2 write changes exactly its bytes and is visible at once, a bad access has no effect; an
accepted doorbell writes SQ_TAIL and CQ_HEAD, a refused one is recorded with its code, counted and raised. Model's own readings
in it: log entries 16, 59 and 60. -/
def Obligations.MemoryWindowAndDoorbell : Prop :=
  (∀ (s : State) (p : Port) (off : BitVec 48), Live s → s.dev.fw.stopped = false →
     let a := s.dev.winBase p + off.toNat
     (∀ (l : List Byte) (len : BitVec 16), s.dev.poison = [] → off.toNat + l.length ≤ 2 ^ 32 →
       (∀ i, i < l.length → s.dev.barOk p true (a + i) = true) →
       Completes (.bar2Access p off (some l) len {}) s (fun t => SameOutside s t a l.length ∧
         (∀ i b, l[i]? = some b → t.dev.byte (a + i) = b) ∧ (∀ e ∈ t.dev.stale, ∀ u ∈ e.2, u.who ≠ agentHost p) ∧
         t.dev.out = s.dev.out ∧ t.dev.cores = s.dev.cores ∧
         (∀ o, ¬ trafficRegs.contains o → t.dev.reg o = s.dev.reg o))) ∧
     (∀ len : BitVec 16, s.dev.poison = [] → off.toNat + len.toNat ≤ 2 ^ 32 → (∀ i, i < len.toNat → s.dev.barOk p false (a + i) = true) →
       Completes (.bar2Access p off none len {}) s (fun t => t.dev.mem = s.dev.mem ∧
         t.dev.out = .bar2Data p (s.dev.bytes (agentHost p) a len.toNat) false :: s.dev.out ∧
         (∀ o, ¬ trafficRegs.contains o → t.dev.reg o = s.dev.reg o))) ∧
     (∀ (l : List Byte) (len : BitVec 16) (i : Nat), i < l.length →
       s.dev.barOk p true (a + i) = false ∨ 2 ^ 32 < off.toNat + l.length →
       Completes (.bar2Access p off (some l) len {}) s (fun t =>
         t = after s { s.dev with out := .unsupported p :: s.dev.out }))) ∧
  (∀ (s : State) (p : Port) (q : Fin 65536) (v : Dword) (whole : Bool), Live s → s.dev.fw.stopped = false →
     (s.dev.doorbellCode p q.val v whole = none → Completes (.doorbell p q v whole) s (fun t =>
       (t.dev.queue q.val).sqTail = v.setWidth 32 ∧ (t.dev.queue q.val).cqHead = (v >>> 32).setWidth 32 ∧
       (t.dev.queue q.val).sqCons = (s.dev.queue q.val).sqCons ∧ (t.dev.queue q.val).entries = (s.dev.queue q.val).entries ∧
       (∀ m, m ≠ q.val → t.dev.queue m = s.dev.queue m) ∧ t.dev.mem = s.dev.mem ∧ t.dev.regs = s.dev.regs ∧
       ∀ e ∈ t.dev.stale, ∀ u ∈ e.2, u.who ≠ agentHost p)) ∧
     (∀ k, s.dev.doorbellCode p q.val v whole = some k → Completes (.doorbell p q v whole) s (fun t =>
       t.dev.reg (Reg.HPx_DB_ERR p.idx) = BitVec.ofNat 32 (q.val + k * 65536) ∧
       t.dev.reg (Reg.HPx_DB_ERRS p.idx) = s.dev.reg (Reg.HPx_DB_ERRS p.idx) + 1 ∧
       t.dev.fld (Reg.HPx_EVENT p.idx) Fld.HPx_EVENT_DB_ERROR = 1 ∧ t.dev.queues = s.dev.queues)) ∧
     (whole = false → s.dev.doorbellCode p q.val v whole = some 5))

/-- R286: a read of a free semaphore acquires it and answers MINE and OTHER; of two ports that read a free one in the same cycle the
port that did not hold it last takes it, HP-A first after a reset; only the holder's write of 0 releases it; a lost port releases
every semaphore that it holds. -/
def Obligations.SemaphoreArbitration : Prop :=
  (∀ n : Nat, (State.reset.dev.sem n).holder = none ∧ (State.reset.dev.sem n).lastB = true) ∧
  ∀ (s : State) (p : Port), Live s →
    (∀ n : Fin 64,
      let x := s.dev.sem n.val
      (x.holder = none →
        Completes (.semRead p n false) s (fun t => t.dev.sem n.val = { holder := some p, lastB := decide (p = .b) } ∧
          t.dev.out = .regData p 1 :: s.dev.out ∧ ∀ m, m ≠ n.val → t.dev.sem m = s.dev.sem m) ∧
        Completes (.semRead p n true) s (fun t =>
          let w : Port := if x.lastB then .a else .b
          t.dev.sem n.val = { holder := some w, lastB := decide (w = .b) } ∧
          t.dev.out = .regData p.other (if w = p.other then 1 else 2) :: .regData p (if w = p then 1 else 2) :: s.dev.out ∧
          ∀ m, m ≠ n.val → t.dev.sem m = s.dev.sem m)) ∧
      (∀ h, x.holder = some h →
        Completes (.semRead p n false) s (fun t => t.dev.sems = s.dev.sems ∧
          t.dev.out = .regData p (if h = p then 1 else 2) :: s.dev.out)) ∧
      (x.holder = some p → Completes (.semRelease p n 0) s (fun t => t.dev.sem n.val = { x with holder := none } ∧
        ∀ m, m ≠ n.val → t.dev.sem m = s.dev.sem m)) ∧
      (∀ v : Word, x.holder ≠ some p → Completes (.semRelease p n v) s (fun t => t = after s s.dev))) ∧
    (∀ c ∈ [((s.dev.port p).attached, Instr.heartbeatTimeout p), ((s.dev.port p).linkUp, .hostLinkDown p)],
      c.1 = true → Completes c.2 s (fun t => ∀ n, n < 64 → t.dev.sem n = if (s.dev.sem n).holder = some p then { s.dev.sem n with holder := none } else s.dev.sem n))

/-- R293, R297, R299: the QM consumes the entry at SQ_CONS as memory holds it; a FLAGS head whose waits are set starts and
completes, and clears the flags it names; a RUN head starts its job on the gang.
Model's own readings in it: log entries 41, 42, 61 and 62. -/
def Obligations.EntriesConsumedAndStarted : Prop :=
  ∀ (s : State) (q : Fin 65536), Live s →
    let x := s.dev.queue q.val
    (s.dev.awake = true → s.dev.ringShut q.val = false → x.sqCons ≠ x.sqTail → (x.state ≠ .free ∨ q.val < 2) →
      s.dev.poison = [] →
      let a := x.sqBase + 64 * (x.sqCons.toNat % 2 ^ x.sqLog)
      Completes (.entryConsume q) s (fun t => ∃ e : Entry,
        (t.dev.queue q.val).entries = x.entries ++ [e] ∧ e.count = x.sqCons.toNat ∧ e.raw = s.dev.bytes agentFw a 64 ∧
        e.started = false ∧ e.result = s.dev.consumed q.val x { e with result := none } ∧
        (t.dev.queue q.val).sqCons = x.sqCons + 1 ∧ (∀ m, m ≠ q.val → t.dev.queue m = s.dev.queue m) ∧
        t.dev.mem = s.dev.mem)) ∧
    (∀ (e : Entry) (leader : Fin 8), s.dev.maySchedule = true → isAdmin q.val = false → x.head = some e →
      s.dev.canStart x e = true → s.dev.isFirst q.val e = true →
      (e.op = 2 → Completes (.entryStart q leader) s (fun t =>
        (t.dev.queue q.val).entries = x.entries.map (fun y =>
          if y.count = e.count then { y with started := true, result := some { status := 0 } } else y) ∧
        (∀ f, t.dev.flag f = (s.dev.flag f && !(e.waits.any (fun w => w.2 && decide (w.1 = f))))) ∧
        t.dev.jobs = s.dev.jobs ∧ t.dev.cores = s.dev.cores)) ∧
      (∀ (c : Ctx) (v : Variant) (ls : List Nat), e.op = 1 → Tbl.find? s.dev.ctxs e.ctx = some c → s.dev.canEver c = true →
        s.dev.bestVariant c = some (v, ls) → ls.contains leader.val = true →
        Completes (.entryStart q leader) s (fun t =>
          (∃ j : Job, t.dev.job? leader.val = some j ∧ j.members = gangCores v.gang leader.val ∧ j.ctx = e.ctx ∧
            j.queue = q.val ∧ j.count = e.count ∧ j.sets = e.sets ∧ j.code = c.basket + v.off ∧ j.codeLen = v.len ∧
            j.fetch = v.entry ∧ j.state = .running ∧ j.replays = 0 ∧ j.flags = [] ∧ j.heldFlags = []) ∧
          (∀ n ∈ gangCores v.gang leader.val, (t.dev.core n).gang = some leader.val ∧ (t.dev.core n).halted = false ∧
            (t.dev.core n).retired = 0 ∧ (t.dev.core n).s = [] ∧ (t.dev.core n).next = v.entry ∧
            (t.dev.core n).v = [] ∧ (t.dev.core n).p = [] ∧ (t.dev.core n).sticky = 0 ∧
            (t.dev.core n).acc = (s.dev.core n).acc.map (fun a => (a.1, { a.2 with open_ := false })) ∧
            (t.dev.core n).hostedLogic = s.dev.logicHosted n ∧ (t.dev.core n).hostedArrays = s.dev.arraysHosted n ∧
            (t.dev.core n).sets = (s.dev.core n).sets) ∧
          (∀ n, n ∉ gangCores v.gang leader.val → t.dev.core n = s.dev.core n) ∧ t.dev.mem = s.dev.mem)))

/-- R285, R297, R298, R303 to R305: delivering a completion writes its record and sets its flags; a timeout ends an unstarted head;
hosts set and clear flags; a deadlocked set is counted and its queues stop.
Model's own readings in it: log entries 10, 64, 65 and 167. -/
def Obligations.CompletionsFlagsAndDeadlock : Prop :=
  (∀ (s : State) (q : Fin 65536), Live s →
     let x := s.dev.queue q.val
     (∀ (e : Entry) (rest : List Entry) (r : JobResult), s.dev.awake = true → x.entries = e :: rest → e.result = some r →
       (e.started = true ∨ x.freeSlots ≠ 0) → s.dev.poison = [] →
       let a := x.cqBase + 32 * (x.cqProd.toNat % 2 ^ x.cqLog)
       Completes (.completionDeliver q) s (fun t =>
         (t.dev.queue q.val).entries = rest ∧ (t.dev.queue q.val).cqProd = x.cqProd + 1 ∧
         leNat ((List.range 4).map (fun i => t.dev.byte (a + 4 + i))) = e.tag % 2 ^ 32 ∧
         leNat ((List.range 4).map (fun i => t.dev.byte (a + 8 + i))) = e.count % 2 ^ 32 ∧
         leNat ((List.range 4).map (fun i => t.dev.byte (a + 12 + i))) = q.val ∧
         leNat ((List.range 4).map (fun i => t.dev.byte (a + 16 + i))) = r.aux.toNat ∧
         leNat ((List.range 8).map (fun i => t.dev.byte (a + 24 + i))) = s.dev.time.toNat ∧
         SameOutside s t a 32 ∧
         (∀ f, t.dev.flag f = (s.dev.flag f ||
           (!isAdmin q.val && (decide (r.status < 0x100) || e.failset) && e.sets.contains f))) ∧
         ∀ m, m ≠ q.val → t.dev.queue m = s.dev.queue m)) ∧
     (∀ (e : Entry) (count : Word), isAdmin q.val = false → x.head = some e → x.entries.find? (fun (y : Entry) =>
         decide (y.count = count.toNat) && y.result.isNone) = some e → e.timeout ≠ 0 → s.dev.jobFor q.val count.toNat = none →
       Completes (.entryTimeout q count) s (fun t =>
         t = after s (s.dev.finish q.val count.toNat { status := 0x101 }))) ∧
     (∀ p, s.dev.owner 0 q.val = some p → x.icUsec ≠ 0 → x.unsig ≠ 0 →
       Completes (.msixTimer q) s (fun t => (t.dev.queue q.val).unsig = 0 ∧ t.dev.mem = s.dev.mem ∧
         ((s.dev.port p).linkUp = true → (s.dev.port p).lost = false → t.dev.out = .msix p x.vector :: s.dev.out)))) ∧
  (∀ s : State, Live s →
     (∀ (p : Port) (v : Word),
       (∀ both : Bool, Completes (.qmFlagSet p ⟨v, both⟩) s (fun t => (∀ f, t.dev.flag f = (s.dev.flag f || decide (f = v.toNat % 2 ^ 18))) ∧
         t.dev.mem = s.dev.mem ∧ t.dev.queues = s.dev.queues ∧ t.dev.jobs = s.dev.jobs)) ∧
       Completes (.qmFlagClr p v) s (fun t => (∀ f, t.dev.flag f = (s.dev.flag f && !decide (f = v.toNat % 2 ^ 18))) ∧
         t = after s { s.dev with flags := t.dev.flags })) ∧
     (∀ q : Fin 65536, s.dev.fwRunning = true → s.dev.awake = true → s.dev.deadlocked [q.val] = true →
       Completes (.deadlock [q]) s (fun t => (t.dev.queue q.val).state = .stopped ∧ (t.dev.queue q.val).deadlocked = true ∧
         t.dev.reg Reg.QM_DEADLOCKS = s.dev.reg Reg.QM_DEADLOCKS + 1 ∧
         (∀ e, (s.dev.queue q.val).head = some e → ∃ e' ∈ (t.dev.queue q.val).entries, e'.count = e.count ∧
           e'.result = some { status := 0x102 }) ∧
         ∀ m, m ≠ q.val → t.dev.queue m = s.dev.queue m)))

/-- R293, Tables 10.6 and 10.7: CREATE_QUEUE makes a FREE queue ACTIVE for the port, STOP, RESUME and DELETE move it through its
states, CANCEL ends what is unstarted below UNTIL; the other port's queue is ERR_NOT_OWNER.
Model's own readings in it: log entries 63, 66 and 166. -/
def Obligations.QueueAdministration : Prop :=
  ∀ (s : State) (p : Port) (e : Entry),
    let q := bits (wordAt e.raw 0x10) 0 16
    (AdminReady s p 0x01 e → s.dev.owner 0 q ≠ some p.other → 2 ≤ q → bits (wordAt e.raw 0x14) 16 11 ≠ 0 →
      s.dev.ringOk (addrAt e.raw 0x18) (bits (wordAt e.raw 0x14) 0 5) 64 = true →
      s.dev.ringOk (addrAt e.raw 0x20) (bits (wordAt e.raw 0x14) 8 5) 32 = true → (s.dev.queue q).state = .free →
      Completes (.createQueue p) s (fun t => ∃ x : Queue, x.state = .active ∧ x.sqBase = addrAt e.raw 0x18 ∧
        x.cqBase = addrAt e.raw 0x20 ∧ x.sqLog = bits (wordAt e.raw 0x14) 0 5 ∧ x.cqLog = bits (wordAt e.raw 0x14) 8 5 ∧
        x.vector = bits (wordAt e.raw 0x14) 16 11 ∧ x.sqCons = 0 ∧ x.sqTail = 0 ∧ x.cqProd = 0 ∧ x.entries = [] ∧
        AdminDone s t p e 0 ({ s.dev with queues := Tbl.set s.dev.queues q x }.setOwner 0 q p))) ∧
    (∀ op ∈ [0x02, 0x03, 0x04, 0x05], ∀ i, (op, i) ∈ [(0x02, Instr.deleteQueue p), (0x03, .stopQueue p), (0x04, .resumeQueue p),
        (0x05, .cancel p)] → Live s → s.dev.adminHead p op = some e →
      (s.dev.owner 0 q = some p.other → Completes i s (fun t => AdminFailed s t p e 0x103 0)) ∧
      (s.dev.owner 0 q ≠ some p.other → badAdmin e.raw = true → Completes i s (fun t => AdminFailed s t p e 0x107 1)) ∧
      (s.dev.owner 0 q ≠ some p.other → q < 2 → Completes i s (fun t => AdminFailed s t p e 0x107 1)) ∧
      (s.dev.owner 0 q ≠ some p.other → badAdmin e.raw = false → 2 ≤ q → (s.dev.queue q).state = .free → Completes i s (fun t => AdminFailed s t p e 0x107 3))) ∧
    (s.dev.owner 0 q ≠ some p.other → 2 ≤ q → (s.dev.queue q).state ≠ .free →
      (AdminReady s p 0x02 e → (s.dev.queue q).entries = [] → Completes (.deleteQueue p) s (fun t =>
        AdminDone s t p e 0 { s.dev with queues := Tbl.erase s.dev.queues q, owners := Tbl.erase s.dev.owners q })) ∧
      (AdminReady s p 0x03 e → (s.dev.queue q).state = .active → Completes (.stopQueue p) s (fun t =>
        AdminDone s t p e 0 (s.dev.updQueue q (fun x => { x with state := .stopped })))) ∧
      (AdminReady s p 0x04 e → (s.dev.queue q).state = .stopped ∨ (s.dev.queue q).state = .parked →
        Completes (.resumeQueue p) s (fun t =>
          AdminDone s t p e 0 (s.dev.updQueue q (fun x => { x with state := .active, deadlocked := false })))) ∧
      (AdminReady s p 0x05 e → s.dev.jobs = [] → Completes (.cancel p) s (fun t => ∃ d : Dev, AdminDone s t p e 0 d ∧
        (∀ m, m ≠ q → d.queue m = s.dev.queue m) ∧ d.mem = s.dev.mem ∧ d.regs = s.dev.regs ∧
        (s.dev.queue q).entries.length = (d.queue q).entries.length ∧
        ∀ y ∈ (s.dev.queue q).entries, y.result = none →
          below (BitVec.ofNat 32 y.count) (BitVec.ofNat 32 (wordAt e.raw 0x14)) = true →
          ∃ y' ∈ (d.queue q).entries, y'.count = y.count ∧ y'.result = some { status := 0x106 })))

/-- R290, R291, R288, R312: a context is created from a valid Basket and binding table and destroyed while no entry names it;
GIVE hands an object to the other port, ADOPT takes one of a lost port.
Model's own readings in it: log entries 42, 66, 67 and 166. -/
def Obligations.ContextAndOwnershipAdministration : Prop :=
  ∀ (s : State) (p : Port) (e : Entry),
    let c := bits (wordAt e.raw 0x10) 0 10
    let idx := bits (wordAt e.raw 0x10) 0 16
    let cls := bits (wordAt e.raw 0x10) 16 4
    let x : Ctx :=
      { basket := addrAt e.raw 0x18
        len := wordAt e.raw 0x20
        bind := addrAt e.raw 0x28
        affinity := bits (wordAt e.raw 0x10) 16 8 }
    (AdminReady s p 0x10 e → s.dev.owner 1 c ≠ some p.other → addrAt e.raw 0x18 % 256 = 0 → addrAt e.raw 0x28 % 16 = 0 →
      wordAt e.raw 0x20 ≠ 0 → s.dev.firstBad (addrAt e.raw 0x18) (wordAt e.raw 0x20) = none → Tbl.find? s.dev.ctxs c = none →
      s.dev.basketBad (addrAt e.raw 0x18) (wordAt e.raw 0x20) = false → s.dev.bindingsBad (addrAt e.raw 0x28) = false →
      Completes (.createContext p) s (fun t => ∃ d : Dev, AdminDone s t p e 0 d ∧ d.owner 1 c = some p ∧
        (∀ k, Tbl.find? d.ctxs k = if k = c then some x else Tbl.find? s.dev.ctxs k) ∧
        d.mem = s.dev.mem ∧ d.queues = s.dev.queues ∧ ∀ o, ¬ trafficRegs.contains o → d.reg o = s.dev.reg o)) ∧
    (AdminReady s p 0x11 e → s.dev.owner 1 c ≠ some p.other → Tbl.find? s.dev.ctxs c ≠ none →
      (s.dev.ctxPending c = false → Completes (.destroyContext p) s (fun t => ∃ d : Dev, AdminDone s t p e 0 d ∧ d.owner 1 c = none ∧
        (∀ k, Tbl.find? d.ctxs k = if k = c then none else Tbl.find? s.dev.ctxs k) ∧
        d.mem = s.dev.mem ∧ d.queues = s.dev.queues ∧ d.regs = s.dev.regs)) ∧
      (s.dev.ctxPending c = true → Completes (.destroyContext p) s (fun t => AdminFailed s t p e 0x107 4))) ∧
    (AdminReady s p 0x18 e → movable cls idx = true →
      (s.dev.owner cls idx = some p → Completes (.give p) s (fun t => AdminDone s t p e 0 (s.dev.setOwner cls idx p.other))) ∧
      (s.dev.owner cls idx = some p.other → Completes (.give p) s (fun t => AdminFailed s t p e 0x103 0))) ∧
    (AdminReady s p 0x19 e → bit (wordAt e.raw 0x10) 31 = false → movable cls idx = true → cls ≠ 0 →
      s.dev.owner cls idx = some p.other → s.dev.isLost p.other = true →
      Completes (.adopt p) s (fun t => AdminDone s t p e 0 (s.dev.setOwner cls idx p)))

/-- R308 to R312: ATTACH with the right ABI and admin rings attaches the port and marks its admin queue ACTIVE; a beat restarts
the heartbeat; three missed beats or a link-down lose the port: its semaphores are released and its staging area is empty.
Model's own readings in it: log entries 10, 68, 69 and 158. -/
def Obligations.PortAttachAndLoss : Prop :=
  ∀ (s : State) (p : Port), Live s →
    Completes (.heartbeat p) s (fun t => t = after s (s.dev.updPort p (fun x => { x with beat := s.dev.ticks }))) ∧
    (∀ (abi : BitVec 16) (again : Bool) (i : Instr), (again, i) ∈ [(false, Instr.attach p abi), (true, .reattach p abi)] →
      (s.dev.attachCode p abi again = 1 → Completes i s (fun t =>
        (t.dev.port p).attached = true ∧ (t.dev.port p).lost = false ∧ (t.dev.port p).beat = (s.dev.port p).beat ∧
        t.dev.port p.other = s.dev.port p.other ∧ (t.dev.queue p.idx).state = .active ∧
        (t.dev.queue p.idx).sqBase = (s.dev.adminRing p).1 ∧ (t.dev.queue p.idx).cqBase = (s.dev.adminRing p).2.2.1 ∧
        (∀ m, m ≠ p.idx → t.dev.queue m = s.dev.queue m) ∧ t.dev.reg (Reg.HPx_ATTACH_STATUS p.idx) = 1 ∧
        t.dev.fld (Reg.HPx_EVENT p.other.idx) Fld.HPx_EVENT_PEER_ATTACHED = 1 ∧ t.dev.mem = s.dev.mem)) ∧
      (∀ k, s.dev.attachCode p abi again = k → k ≠ 1 → Completes i s (fun t =>
        t = after s (s.dev.setReg (Reg.HPx_ATTACH_STATUS p.idx) (BitVec.ofNat 32 k))))) ∧
    (let lost := fun (t : State) => (t.dev.port p).attached = false ∧ (t.dev.port p).stage = [] ∧
        (t.dev.port p).lost = ((s.dev.port p).attached || (s.dev.port p).lost) ∧
        ((s.dev.port p).attached = true → (t.dev.queue p.idx).state = .parked) ∧
        (∀ n, n < 64 → (t.dev.sem n).holder = if (s.dev.sem n).holder = some p then none else (s.dev.sem n).holder) ∧
        t.snap p = {} ∧ t.snap p.other = s.snap p.other ∧ t.dev.port p.other = s.dev.port p.other ∧
        t.dev.fld (Reg.HPx_EVENT p.other.idx) Fld.HPx_EVENT_PEER_LOST = 1 ∧ t.dev.mem = s.dev.mem
     ((s.dev.port p).attached = true →
        Completes (.heartbeatTimeout p) s (fun t => lost t ∧ (t.dev.port p).linkUp = (s.dev.port p).linkUp)) ∧
     ((s.dev.port p).linkUp = true → Completes (.hostLinkDown p) s (fun t => lost t ∧ (t.dev.port p).linkUp = false))) ∧
    (s.dev.portOff p = false → s.dev.fw.booted = true →
      Completes (.hostLinkUp p) s (fun t => t = after s (s.dev.updPort p (fun x => { x with linkUp := true }))))

/-- R316, R321, R323, R333, R340, R341, R344: a residue check detects every single flipped bit of an integer and no error that is a
multiple of 7; tests set a unit's result and count, a failed test is an event; an OBSERVED unit becomes HEALTHY after its time, a
FENCED one OBSERVED by UNFENCE; a window's end restarts the counts of corrected errors.
Model's own readings in it: log entries 10, 74, 75 and 165. -/
def Obligations.HealthTransitions : Prop :=
  (∀ x : Int, residue x < 7 ∧ (x - residue x) % 7 = 0 ∧
    (∀ k, k < 64 → -2 ^ 63 ≤ x → x < 2 ^ 63 → flipInt (2 ^ k) x ≠ x ∧ intFails (residue x) (flipInt (2 ^ k) x) = true) ∧
    (∀ y : Int, (y - x) % 7 = 0 → intFails (residue x) y = false)) ∧
  ∀ (s : State) (u : Fin 48), Live s →
    (∀ temp : Int, s.dev.mayTest u.val = true →
      ((s.dev.unit u.val).confirm = true → Completes (.confirmationTest u .pass temp) s (fun t =>
        (t.dev.unit u.val).test.result = 1 ∧ (t.dev.unit u.val).confirm = false ∧ (t.dev.unit u.val).st = (s.dev.unit u.val).st ∧
        (∀ v, v ≠ u.val → t.dev.unit v = s.dev.unit v) ∧
        RegIs s t Reg.STC_FTEST_RUNS (s.dev.reg Reg.STC_FTEST_RUNS + 1) ∧ t.dev.mem = s.dev.mem)) ∧
      (s.dev.fld Reg.STC_FTEST_CTRL Fld.STC_FTEST_CTRL_EN = 1 → Completes (.fieldTest u .pass temp) s (fun t =>
        (t.dev.unit u.val).test.result = 1 ∧ (t.dev.unit u.val).st = (s.dev.unit u.val).st ∧
        (∀ v, v ≠ u.val → t.dev.unit v = s.dev.unit v) ∧
        RegIs s t Reg.STC_FTEST_RUNS (s.dev.reg Reg.STC_FTEST_RUNS + 1) ∧ t.dev.mem = s.dev.mem)) ∧
      (∀ k, s.dev.fld Reg.STC_FTEST_CTRL Fld.STC_FTEST_CTRL_EN = 1 → (s.dev.unit u.val).st = .healthy →
        Completes (.fieldTest u (.fail k) temp) s (fun t => (t.dev.unit u.val).st = .observed ∧
          (t.dev.unit u.val).remain = 259200 ∧ (t.dev.unit u.val).confirm = true ∧
          t.dev.reg Reg.STC_FTEST_FAILS = s.dev.reg Reg.STC_FTEST_FAILS + 1 ∧
          t.dev.reg Reg.STC_FLOG_WPTR = s.dev.reg Reg.STC_FLOG_WPTR + 1))) ∧
    ((s.dev.unit u.val).st = .healthy → Completes (.fieldOverdue u) s (fun t =>
      t.dev.fld Reg.STC_HEALTH_SUM Fld.STC_HEALTH_SUM_FIELD_OVERDUE = 1 ∧ t.dev.units = s.dev.units ∧
      ∀ o, o ≠ Reg.STC_HEALTH_SUM → t.dev.reg o = s.dev.reg o)) ∧
    ((s.dev.unit u.val).st = .observed → Completes (.observedTimeout u) s (fun t =>
      (t.dev.unit u.val).st = .healthy ∧ (t.dev.unit u.val).remain = 0 ∧ (∀ v, v ≠ u.val → t.dev.unit v = s.dev.unit v) ∧
      t.dev.reg Reg.STC_FLOG_WPTR = s.dev.reg Reg.STC_FLOG_WPTR + 1 ∧ t.dev.mem = s.dev.mem)) ∧
    ((s.dev.unit u.val).unfence = true → s.dev.coreFree (u.val / 6) = true → s.dev.keepsFence u.val = false →
      Completes (.unfenceTakesEffect u) s (fun t =>
      (t.dev.unit u.val).st = .observed ∧ (t.dev.unit u.val).remain = 259200 ∧ (t.dev.unit u.val).unfence = false ∧
      (∀ v, v ≠ u.val → t.dev.unit v = s.dev.unit v) ∧
      t.dev.fld Reg.STC_HEALTH_SUM Fld.STC_HEALTH_SUM_RECORD_DIRTY = 1)) ∧
    Completes .eccWindowEnd s (fun t => ∀ v, t.dev.unit v = { s.dev.unit v with corr := 0 }) ∧
    (∀ (p : Port) (e : Entry), AdminReady s p 0x31 e → bits (wordAt e.raw 0x10) 0 6 = u.val →
      (s.dev.holdsSem0 p = false → Completes (.unfence p) s (fun t => AdminFailed s t p e 0x107 5)) ∧
      (s.dev.holdsSem0 p = true → (s.dev.unit u.val).st ≠ .fenced → Completes (.unfence p) s (fun t => AdminFailed s t p e 0x107 4)) ∧
      (s.dev.holdsSem0 p = true → (s.dev.unit u.val).st = .fenced → u.val % 6 ≠ 4 → (s.dev.unit u.val).unfence = false →
        s.dev.coreFree (u.val / 6) = false →
        Completes (.unfence p) s (fun t => AdminDone s t p e 1 (s.dev.updUnit u.val (fun h => { h with unfence := true })))) ∧
      (s.dev.holdsSem0 p = true → (s.dev.unit u.val).st = .fenced → u.val % 6 ≠ 4 → (s.dev.unit u.val).unfence = false →
        s.dev.coreFree (u.val / 6) = true →
        Completes (.unfence p) s (fun t => AdminDone s t p e 0 (s.dev.unfenceNow u.val))))

/-- R228, R229, R232, R234, R236, R238, R244: receivers synchronise, discard and count packets; a frame start opens a frame with the
next FRAME number, the start time and the next free buffer.
Model's own readings in it: log entries 76, 77, 78 and 161. -/
def Obligations.CameraReception : Prop :=
  (∀ (s : State) (p : Fin 24), Live s →
     let i := p.val / 2
     (s.dev.portExists p.val = true →
       Completes (.startOfTransmission p) s (fun t => FieldIs s t (Reg.CAM_CSIi_STATUS i) (syncFld p.val) 1)) ∧
     (∀ j : Fin 12, s.dev.fld (Reg.CAM_CSIi_CFG j.val) Fld.CAM_CSIi_CFG_MODE = 1 →
       s.dev.fld (Reg.CAM_CSIi_CFG j.val) Fld.CAM_CSIi_CFG_DESKEW = 1 →
       Completes (.deskew j) s (fun t => FieldIs s t (Reg.CAM_CSIi_STATUS j.val) Fld.CAM_CSIi_STATUS_DESKEW_DONE 1)) ∧
     (s.dev.receives p.val = true →
       Completes (.headerError p) s (fun t => OnlyMedia s t ∧
         t.dev.reg (Reg.CAM_CSIi_HDR_DROP i) = s.dev.reg (Reg.CAM_CSIi_HDR_DROP i) + 1 ∧
         t.dev.fld (Reg.CAM_CSIi_STATUS i) (syncFld p.val) = 0 ∧
         RegsOutside s t [Reg.CAM_CSIi_HDR_DROP i, Reg.CAM_CSIi_STATUS i] ∧
         ∀ n, n < 32 → t.dev.str n = match (s.dev.str n).cur with
           | some f => if dPort f.desc = p.val then
               { s.dev.str n with cur := some { f with flags := f.flags ||| 16, hdrErr := f.hdrErr + 1 } } else s.dev.str n
           | none => s.dev.str n) ∧
       (∀ (vc : Fin 16) (dt : Fin 64), s.dev.claimed p.val vc.val = [] → dt ≠ 2 → dt ≠ 3 →
         Completes (.unmatchedPacket p vc dt false) s (fun t => Counts s t (Reg.CAM_CSIi_UNMATCHED i) 1)))) ∧
  (∀ (s : State) (p : Fin 24) (vc : Fin 16) (fn : BitVec 16) (n : Nat), Live s → s.dev.receives p.val = true →
     (∀ corr : Bool, s.dev.claimedStart p.val vc.val = [n] → (s.dev.str n).next = none → dVc (s.dev.str n).desc = vc.val →
       (s.dev.str n).cur = none →
       let x := s.dev.str n
       Completes (.frameStart p vc fn corr) s (fun t =>
         t.dev.reg (Reg.CAM_STRn_FRAME n) = (if x.begun = true then s.dev.reg (Reg.CAM_STRn_FRAME n) + 1 else 0) ∧
         t.dev.reg (Reg.CAM_CSIi_HDR_CORR (p.val / 2)) =
           s.dev.reg (Reg.CAM_CSIi_HDR_CORR (p.val / 2)) + (if corr then 1 else 0) ∧
         (∃ f, (t.dev.str n).cur = some f ∧ f.frame = (t.dev.reg (Reg.CAM_STRn_FRAME n)).toNat ∧ f.sensor = fn ∧
           f.start = s.dev.time ∧ f.desc = x.desc ∧ f.exps.length = dExps x.desc ∧
           (x.begun = false → f.has ffFIRST = true) ∧ (f.buf = none → f.has ffNO_BUFFER = true) ∧
           (Tbl.find? x.bufs x.nextBuf = none → f.buf = some x.nextBuf)) ∧
         (t.dev.str n).begun = true ∧ (t.dev.str n).deadline = s.dev.time.toNat + dPeriod x.desc + dMargin x.desc ∧
         (∀ m, m ≠ n → t.dev.str m = s.dev.str m) ∧ SameOutside s t (addrAt x.desc 0x48) 512)) ∧
     (∀ f : OFrame, s.dev.claimedStart p.val vc.val = [n] → (s.dev.str n).next = none → (s.dev.str n).cur = some f →
       f.desc = (s.dev.str n).desc → dVc f.desc < vc.val →
       (f.exps.getD (vc.val - dVc f.desc) {}).begun = false → (∃ x ∈ f.exps, x.closed = false) →
       Completes (.frameStart p vc fn false) s (fun t => OnlyMedia s t ∧ t.dev.regs = s.dev.regs ∧
         (t.dev.str n).cur = some { f with exps := f.exps.modify (vc.val - dVc f.desc) (fun x => { x with begun := true }) } ∧
         ∀ m, m ≠ n → t.dev.str m = s.dev.str m)))

/-- R231, R234, R235, R238, R239, R244: a line is stored at its place of the frame's buffer, a frame that ends early is SHORT and
PARTIAL, a completed frame writes its record, shows its flags and sets its event flag; a late frame is counted.
Model's own readings in it: log entries 10, 77, 79, 81, 82, 83 and 86. -/
def Obligations.CameraFrames : Prop :=
  (∀ (s : State) (p : Fin 24) (vc : Fin 16) (n : Nat) (f : OFrame) (x : OExp), Live s → s.dev.receives p.val = true →
     s.dev.claimed p.val vc.val = [n] → (s.dev.str n).cur = some f → f.desc = (s.dev.str n).desc → s.dev.poison = [] →
     let l := f.desc
     let e := vc.val - dVc l
     f.exps[e]? = some x → x.closed = false →
     (∀ (dt : Fin 64) (wire : List Byte) (crc full : Bool) (b : Nat), dt.val = dDt l → dtLong dt.val = true →
       dDest l = 0 → f.buf = some b → x.n + 1 < dH l →
       let a := addrAt l 0x30 + b * wordAt l 0x38 + (e * dH l + x.n) * fldAt l 0x3C 0 24
       let r := rawLine l wire
       s.dev.firstBad a r.length = none →
       Completes (.linePacket p vc dt wire crc false full) s (fun t =>
         (t.dev.str n).cur = some
           { f with
             exps := f.exps.modify e (fun x => { x with n := x.n + 1, got := x.got + 1, begun := true })
             crcErr := f.crcErr + (if crc then 1 else 0)
             flags := f.flags ||| (if crc then 8 else 0) ||| (if 8 * wire.length / dtBits (dDt l) = dW l then 0 else 32) } ∧
         (∀ m, m ≠ n → t.dev.str m = s.dev.str m) ∧
         (∀ i v, r[i]? = some v → t.dev.byte (a + i) = v) ∧ SameOutside s t a r.length ∧
         t.dev.reg (Reg.CAM_CSIi_CRC_ERR (p.val / 2)) =
           s.dev.reg (Reg.CAM_CSIi_CRC_ERR (p.val / 2)) + (if crc then 1 else 0))) ∧
     (f.exps = [x] → vc.val = dVc l → x.n < dH l → (s.dev.str n).next = none →
       Completes (.frameEnd p vc false) s (fun t => (t.dev.str n).cur = none ∧
         (∃ g : OFrame, (t.dev.str n).closed = (s.dev.str n).closed ++ [g] ∧ g.has ffSHORT = true ∧ g.has ffPARTIAL = true ∧
           g.endT = s.dev.time ∧ g.frame = f.frame ∧ g.buf = f.buf ∧ ∀ y ∈ g.exps, y.closed = true ∧ y.ended = true) ∧
         ∀ m, m ≠ n → t.dev.str m = s.dev.str m))) ∧
  (∀ (s : State) (n : Fin 32), Live s → s.dev.poison = [] →
     (∀ (f : OFrame) (rest : List OFrame), (s.dev.str n).closed = f :: rest →
       dDest (s.dev.str n).desc = 0 →
       let x := s.dev.str n
       let a := addrAt x.desc 0x40 + 16384 * (f.frame % Nat.max 1 (dNstat x.desc))
       s.dev.firstBad a 64 = none → f.desc = x.desc →
       Completes (.frameComplete n) s (fun t =>
         (t.dev.str n).closed = rest ∧ (t.dev.str n).cur = x.cur ∧ (∀ m, m ≠ n.val → t.dev.str m = s.dev.str m) ∧
         t.dev.reg (Reg.CAM_STRn_LAST_FLAGS n) = f.flags ||| 512 ∧
         memWord t a = f.frame % 2 ^ 32 ∧ memWord t (a + 32) = (f.flags ||| 512).toNat ∧ SameOutside s t a 64 ∧
         (∀ k, t.dev.flag k = (s.dev.flag k || (decide (k < nFlags) && f.buf.any (fun b => decide (k = dFlag x.desc + b))))) ∧
         t.dev.reg Reg.CAM_ERR_EVENT = s.dev.reg Reg.CAM_ERR_EVENT |||
           (if f.flags.toNat % 64 = 0 then 0 else BitVec.ofNat 32 (2 ^ n.val)))) ∧
     ((s.dev.str n).on = true → dPeriod (s.dev.str n).desc ≠ 0 → (s.dev.str n).deadline ≤ s.dev.time.toNat →
       Completes (.frameLate n) s (fun t =>
         t.dev.reg (Reg.CAM_STRn_LATE n) = s.dev.reg (Reg.CAM_STRn_LATE n) + 1 ∧
         t.dev.reg Reg.CAM_LATE_EVENT = s.dev.reg Reg.CAM_LATE_EVENT ||| BitVec.ofNat 32 (2 ^ n.val) ∧
         (t.dev.str n).deadline = (s.dev.str n).deadline + dPeriod (s.dev.str n).desc ∧
         (∀ m, m ≠ n.val → t.dev.str m = s.dev.str m) ∧ t.dev.mem = s.dev.mem)))

/-- R246 to R253: sensor write batches and host transfers are served by their bus and counted; an idle pipe takes its next
memory job and its end counts it and sets its flag. Model's own readings in it: log entries 84, 85 and 86. -/
def Obligations.SensorBusesAndMemoryJobs : Prop :=
  (∀ (s : State) (j : Fin 12), Live s →
     (∀ (n : Fin 32) (b : SBatch) (rest : List SBatch), (s.dev.str n).due = b :: rest → b.bus = j.val →
       (s.dev.bus j).batches = [] → (s.dev.bus j).hostRuns = false → s.dev.busOn j = true →
       Completes (.sensorWriteBatch n) s (fun t => (t.dev.str n).due = rest ∧ (t.dev.bus j).batches = [b] ∧
         t.dev.out = (b.writes.map (fun w => Out.sensor j w)).reverse ++ s.dev.out ∧
         t.dev.regs = s.dev.regs ∧ t.dev.mem = s.dev.mem ∧ ∀ m, m ≠ j.val → t.dev.bus m = s.dev.bus m)) ∧
     (∀ (b : SBatch) (skipped : List Nat), (s.dev.bus j).batches = [b] → (s.dev.bus j).host = none →
       (s.dev.bus j).hostRuns = false →
       Completes (.sensorBatchEnd j skipped) s (fun t => (t.dev.bus j).batches = [] ∧
         RegIs s t (Reg.CAM_SCBj_NACKS j) (s.dev.reg (Reg.CAM_SCBj_NACKS j) +
           BitVec.ofNat 32 ((List.range b.writes.length).filter (fun i => skipped.contains i)).length) ∧
         OnlyMedia s t ∧ ∀ m, m ≠ j.val → t.dev.bus m = s.dev.bus m)) ∧
     (∀ (p : Port) (v : Word), (s.dev.port p).lost = false →
       (s.dev.mayWrite p 3 j = true → (s.dev.bus j).host = none → (s.dev.bus j).batches = [] →
         Fld.CAM_SCBj_XFER_LEN.get v ≠ 3 →
         Completes (.scbXfer p j v) s (fun t => (t.dev.bus j).hostRuns = true ∧ (∃ x, (t.dev.bus j).host = some x ∧
             x.1.dev = Fld.CAM_SCBj_XFER_ADDR.get v ∧ x.1.reg = Fld.CAM_SCBj_XFER_REG.get v ∧
             x.1.dataBytes = 2 ^ Fld.CAM_SCBj_XFER_LEN.get v ∧ x.2 = decide (Fld.CAM_SCBj_XFER_DIR.get v = 1) ∧
             t.dev.out = (if s.dev.busOn j = true then [Out.scb j x.1 x.2] else []) ++ s.dev.out) ∧
           t.dev.fld (Reg.CAM_SCBj_XSTATUS j) Fld.CAM_SCBj_XSTATUS_BUSY = 1 ∧ RegsOutside s t [Reg.CAM_SCBj_XSTATUS j])) ∧
       (s.dev.mayWrite p 3 j = false → Completes (.scbXfer p j v) s (fun t =>
         FieldIs s t (Reg.CAM_SCBj_XSTATUS j) Fld.CAM_SCBj_XSTATUS_WR_REJECT 1))) ∧
     (∀ (w : SensorWrite) (rd nack : Bool) (v : Word), (s.dev.bus j).host = some (w, rd) → (s.dev.bus j).hostRuns = true →
       (s.dev.bus j).batches = [] →
       Completes (.scbXferDone j nack v) s (fun t => t.dev.bus j = {} ∧
         t.dev.fld (Reg.CAM_SCBj_XSTATUS j) Fld.CAM_SCBj_XSTATUS_BUSY = 0 ∧
         t.dev.fld (Reg.CAM_SCBj_XSTATUS j) Fld.CAM_SCBj_XSTATUS_NACK = (if nack then 1 else 0) ∧
         (rd = true → nack = false → (t.dev.reg (Reg.CAM_SCBj_XDATA j)).toNat = v.toNat % 2 ^ (8 * w.dataBytes)) ∧
         OnlyMedia s t ∧ RegsOutside s t [Reg.CAM_SCBj_XSTATUS j, Reg.CAM_SCBj_XDATA j])) ∧
     (s.dev.fld (Reg.CAM_SCBj_CFG j) Fld.CAM_SCBj_CFG_MODE = 1 →
       Completes (.ibi j) s (fun t => Counts s t (Reg.CAM_SCBj_IBI j) 1)) ∧
     (∀ n : Fin 32, (s.dev.str n).on = true → (s.dev.str n).begun = true →
       Completes (.ispParamFetch n) s (fun t => OnlyMedia s t ∧ t.dev.regs = s.dev.regs ∧
         (t.dev.str n).sets = (s.dev.str n).sets.map (fun x =>
           if x.target = (s.dev.reg (Reg.CAM_STRn_FRAME n)).toNat + 1 ∧ x.block = none then
             { x with block := x.param.map (fun a => s.dev.readStruct (agentStream n) a 8192) } else x)))) ∧
  (∀ (s : State) (m : Fin 4), Live s →
     let c := s.dev.reg (Reg.ISPm_MJOB_CONS m)
     (s.dev.mjobRing m ≠ 0 → s.dev.fw.stopping = false → Tbl.find? s.dev.med.mjob m.val = none →
       countAhead c (s.dev.mjobProd m) = true →
       Completes (.memoryJob m) s (fun t => OnlyMedia s t ∧ t.dev.regs = s.dev.regs ∧
         ∀ k, Tbl.find? t.dev.med.mjob k = if k = m.val then
           some (s.dev.readStruct (agentMjob m) (s.dev.mjobRing m + 64 * (c.toNat % 64)) 64)
         else Tbl.find? s.dev.med.mjob k)) ∧
     (∀ l : List Byte, Tbl.find? s.dev.med.mjob m.val = some l →
       Completes (.memoryJobDone m) s (fun t => t.dev.reg (Reg.ISPm_MJOB_CONS m) = c + 1 ∧
         (∀ k, Tbl.find? t.dev.med.mjob k = if k = m.val then none else Tbl.find? s.dev.med.mjob k) ∧
         (∀ k, t.dev.flag k = (s.dev.flag k || (bit (wordAt l 0x34) 18 && decide (k = fldAt l 0x34 0 18)))) ∧
         t.dev.med.str = s.dev.med.str)))

/-- R264, R266 to R271: an access unit in turn is decoded, discarded or rejected and consumed; held pictures are output in display
order; an encode job's picture enters the bitstream ring or waits for room.
Model's own readings in it: log entries 40, 86, 87, 88, 89, 90 and 91. -/
def Obligations.VideoContexts : Prop :=
  (∀ (s : State) (n : Fin 64), Live s → s.dev.poison = [] →
     let x := s.dev.dctx n
     let l := x.desc
     (∀ a : AuPic, s.dev.dcTurn (dcEngine l) = some n.val →
       let count := s.dev.reg (Reg.VID_DCTXn_AU_CONS n)
       let at_ := addrAt l 0x20 + 32 * (count.toNat % 64)
       let raw := s.dev.readStruct (agentDctx n) at_ 32
       s.dev.firstBad at_ 32 = none → fldAt raw 8 0 24 ≠ 0 → wordAt raw 0xC = 0 →
       strayBits raw 8 ([(8, 0, 24), (0xC, 0, 2), (0x10, 0, 32), (0x14, 0, 32), (0x18, 0, 8)] ++ addrField 0) = false →
       s.dev.firstBad (addrAt raw 0) (fldAt raw 8 0 24) = none →
       (auReject x a = none → Completes (.accessUnit n (some a)) s (fun t =>
         t.dev.reg (Reg.VID_DCTXn_AU_CONS n) = count + 1 ∧ memWord t (at_ + 0x18) = 1 ∧
         (∃ h : Held, (t.dev.dctx n).held = x.held ++ [h] ∧ h.pic = concealed a x.prev ∧ h.desc = l ∧ h.order = a.order ∧ h.crop = a.crop ∧
           h.au = count ∧ h.key = a.key) ∧
         (t.dev.dctx n).waitKey = false ∧ (t.dev.dctx n).prev = some (concealed a x.prev) ∧
         (∀ m, m ≠ n.val → t.dev.dctx m = s.dev.dctx m) ∧
         t.dev.reg64 (Reg.VID_ENGe_PIXELS_LO (dcEngine l)) (Reg.VID_ENGe_PIXELS_HI (dcEngine l)) =
           (s.dev.reg64 (Reg.VID_ENGe_PIXELS_LO (dcEngine l)) (Reg.VID_ENGe_PIXELS_HI (dcEngine l)) + a.pic.w * a.pic.h) % 2 ^ 64)) ∧
       (∀ st, auReject x a = some st → Completes (.accessUnit n (some a)) s (fun t =>
         t.dev.reg (Reg.VID_DCTXn_AU_CONS n) = count + 1 ∧ memWord t (at_ + 0x18) = st ∧ (t.dev.dctx n).held = x.held ∧
         (t.dev.dctx n).waitKey = (x.waitKey || decide (st ≠ auWAIT_KEY)) ∧ SameOutside s t (at_ + 0x18) 4 ∧
         t.dev.reg (Reg.VID_DCTXn_REJECTED n) = s.dev.reg (Reg.VID_DCTXn_REJECTED n) + (if st = auWAIT_KEY then 0 else 1)))) ∧
     (∀ h : Held, firstHeld x.held = some h →
       let l := h.desc
       let b := x.slotIn l
       (s.dev.dcFree n l = false → Completes (.pictureOutput n) s (fun t => OnlyMedia s t ∧ t.dev.regs = s.dev.regs ∧
         t.dev.dctx n = { x with outWait := true } ∧ ∀ m, m ≠ n.val → t.dev.dctx m = s.dev.dctx m)) ∧
       (s.dev.dcFree n l = true → h.time.length = 8 → x.next = none →
         let pic := s.dev.reg (Reg.VID_DCTXn_PIC n)
         let a := addrAt l 0x48 + 64 * b
         s.dev.firstBad a 64 = none →
         Completes (.pictureOutput n) s (fun t => memWord t a = pic.toNat ∧ memWord t (a + 4) = h.au.toNat ∧
           (t.dev.dctx n).held = x.held.filter (fun g => g ≠ h) ∧ (t.dev.dctx n).outWait = false ∧
           (t.dev.dctx n).nextBuf = (b + 1) % Nat.max 1 (dcNbuf l) ∧
           t.dev.reg (Reg.VID_DCTXn_PIC n) = pic + 1 ∧
           t.dev.reg (Reg.VID_DCTXn_CONCEALED n) = s.dev.reg (Reg.VID_DCTXn_CONCEALED n) + (if 0 < h.concealed then 1 else 0) ∧
           (∀ k, t.dev.flag k = (s.dev.flag k || (decide (k < nFlags) && decide (k = dcFlag l + b)))) ∧
           ∀ m, m ≠ n.val → t.dev.dctx m = s.dev.dctx m)))) ∧
  (∀ (s : State) (n : Fin 16) (coded : List Byte), Live s → s.dev.poison = [] →
     let x := s.dev.ectx n
     let l := x.desc
     let c := s.dev.reg (Reg.VID_ECTXn_JOB_CONS n)
     let at_ := addrAt l 0x18 + 64 * (c.toNat % 64)
     let raw := s.dev.readStruct (agentEctx n) at_ 64
     let pos := s.dev.reg (Reg.VID_ECTXn_OUT_POS n)
     let used := (pos + BitVec.ofNat 32 coded.length - s.dev.readCount (agentEctx n) (addrAt l 0x34)).toNat
     s.dev.encTurn = some n.val → x.wait = none → x.next = none → s.dev.jobReject l raw = none →
     2 * coded.length ≤ ecRingBytes l →
     (used ≤ ecRingBytes l → s.dev.firstBad at_ 64 = none → s.dev.firstBad (ecRing l) (ecRingBytes l) = none →
       Completes (.encodeJob n coded) s (fun t =>
         t.dev.reg (Reg.VID_ECTXn_JOB_CONS n) = c + 1 ∧
         t.dev.reg (Reg.VID_ECTXn_OUT_POS n) = pos + BitVec.ofNat 32 coded.length ∧
         memWord t (at_ + 0x20) = pos.toNat ∧ memWord t (at_ + 0x24) = coded.length % 2 ^ 32 ∧
         (∀ i b, coded[i]? = some b →
           let a := ecRing l + (pos.toNat + i) % Nat.max 1 (ecRingBytes l)
           (a < at_ + 0x20 ∨ at_ + 0x2C ≤ a) → t.dev.byte a = b) ∧
         (t.dev.ectx n).wait = none ∧ (∀ m, m ≠ n.val → t.dev.ectx m = s.dev.ectx m))) ∧
     (ecRingBytes l < used → Completes (.encodeJob n coded) s (fun t =>
       (∃ w, (t.dev.ectx n).wait = some w ∧ w.1 = coded) ∧ t.dev.mem = s.dev.mem ∧
       t.dev.reg (Reg.VID_ECTXn_JOB_CONS n) = c ∧ ∀ m, m ≠ n.val → t.dev.ectx m = s.dev.ectx m)))

/-- R272, R276 to R279: a sample entry whose turn it is fills the batch's next slot with its code and is consumed; one that waits
takes the batch's buffer only; a wait that expires pads its slot; a full or flushed batch is emitted, an expired one timed out.
Model's own readings in it: log entries 10, 40, 86, 91 and 92. -/
def Obligations.TensorBatches : Prop :=
  ∀ (s : State) (n : Fin 64), Live s →
    let x := s.dev.bstr n
    let cons := Reg.TAU_BSTRn_SAMPLE_CONS n
    let bad := Reg.TAU_BSTRn_CORRUPT n
    let took := fun (t : State) (r : List Byte) (err : Nat) =>
      t.dev.reg cons = s.dev.reg cons + 1 ∧ t.dev.reg bad = s.dev.reg bad + (if err = seOK then 0 else 1) ∧
      (t.dev.bstr n).slots = x.slots ++ [{ err := err, tag := wordAt r 0x30, time := (r.drop 0x38).take 8, count := s.dev.reg cons }] ∧
      (t.dev.bstr n).buf = some (x.buf.getD x.nextBuf) ∧ (t.dev.bstr n).flush = (x.flush || seFlush r) ∧
      ∀ m, m ≠ n.val → t.dev.bstr m = s.dev.bstr m
    (∀ r : List Byte, s.dev.bsCan n = some r →
      (s.dev.bsWaits n r = true → Completes (.sample n) s (fun t => OnlyMedia s t ∧ t.dev.regs = s.dev.regs ∧
        t.dev.bstr n = { x with buf := some (x.buf.getD x.nextBuf) } ∧ ∀ m, m ≠ n.val → t.dev.bstr m = s.dev.bstr m)) ∧
      (s.dev.bsWaits n r = false → s.dev.bsTurn = some n.val → Completes (.sample n) s (fun t =>
        took t r (if badSample x.desc r = true then seBAD_ENTRY else s.dev.slotCode (agentBstr n) r) ∧ t.dev.med.tauLast = n.val)) ∧
      (s.dev.bsWaits n r = true → bsWait x.desc ≠ 0 →
        Completes (.waitExpired n) s (fun t => took t r seWAIT_EXPIRED))) ∧
    (∀ b : Nat, x.on = true → x.buf = some b → x.next = none →
      let seq := s.dev.reg (Reg.TAU_BSTRn_SEQ n)
      let a := addrAt x.desc 0x48 + 1024 * b
      s.dev.firstBad a 1024 = none → (∀ y ∈ x.slots, y.time.length = 8) →
      let emitted := fun (t : State) (timed : Bool) =>
        t.dev.reg (Reg.TAU_BSTRn_SEQ n) = seq + 1 ∧ memWord t a = seq.toNat ∧
        (t.dev.bstr n).buf = none ∧ (t.dev.bstr n).slots = [] ∧ (t.dev.bstr n).flush = false ∧
        (t.dev.bstr n).nextBuf = (b + 1) % Nat.max 1 (bsNbatch x.desc) ∧
        t.dev.reg (Reg.TAU_BSTRn_TIMEOUTS n) = s.dev.reg (Reg.TAU_BSTRn_TIMEOUTS n) + (if timed then 1 else 0) ∧
        (∀ k, t.dev.flag k = (s.dev.flag k || (decide (k < nFlags) && decide (k = bsFlag x.desc + b)))) ∧
        ∀ m, m ≠ n.val → t.dev.bstr m = s.dev.bstr m
      ((x.flush = true ∨ bsN x.desc ≤ x.slots.length) → Completes (.batchEmit n) s (fun t => emitted t false)) ∧
      (bsTimeout x.desc ≠ 0 → Completes (.batchTimeout n) s (fun t => emitted t true)))

/-- R345: after each of these commands the effective step is at least what every active source of Table 12.1 demands.
Model's own readings in it: log entries 98 and 100. -/
def Obligations.NoSourceIsOutrun : Prop :=
  ∀ (s : State) (readings : List (Option (Nat × Nat))) (comp : List Nat) (mem links sense : Nat) (temps : List Int) (rail : Fin 4),
    Live s → ∀ c ∈ [Instr.telemetrySample readings, .estimate comp mem links sense, .droopPersistence, .supplyWarn rail,
        .thermalSample temps],
      Completes c s (fun t => t.dev.demand ≤ t.dev.pm.step ∧ ∀ e ∈ t.dev.sources, e.2 ≤ t.dev.pm.step)

/-- R351: an estimate forms P = B + (E − Ē_last); the sample at the end of an interval makes Ē_last the mean estimate of the
interval and B its M, or the larger of the two while TELEMETRY_DISAGREE is active. -/
def Obligations.EnforcedPower : Prop :=
  ∀ s : State, Live s →
    (∀ (comp : List Nat) (mem links sense : Nat), comp.length ≤ 8 →
      let k := s.dev.fld Reg.PM_EST_CORR Fld.PM_EST_CORR_K
      let e := (comp.sum + mem + links + sense + s.dev.unmeasured) * k + Config.leak (s.dev.vset s.dev.pm.step) s.dev.tj * k
      Completes (.estimate comp mem links sense) s (fun t =>
        t.dev.pm.pF = (s.dev.pm.baseF : Int) + ((e : Int) - s.dev.pm.lastF) ∧
        t.dev.pm.sumF = s.dev.pm.sumF + e ∧ t.dev.pm.cnt = s.dev.pm.cnt + 1 ∧
        t.dev.pm.baseF = s.dev.pm.baseF ∧ t.dev.pm.lastF = s.dev.pm.lastF)) ∧
    (∀ readings : List (Option (Nat × Nat)),
      Completes (.telemetrySample readings) s (fun t =>
        t.dev.pm.lastF = s.dev.pm.sumF / Nat.max 1 s.dev.pm.cnt ∧ t.dev.pm.sumF = 0 ∧ t.dev.pm.cnt = 0 ∧
        t.dev.pm.baseF = if t.dev.pm.disagree = true then Nat.max (t.dev.measured * 4096 / 1000) t.dev.pm.lastF
          else t.dev.measured * 4096 / 1000))

/-- R346, R348, R350, R352, R353, R357, R358: STEP_RAISE goes one step faster; a sample restarts the interval's sums and takes
up the cap; a regulator fault enters EMERGENCY; the safe step stands until the holder of SEM0 acknowledges it. Model's own
readings in it: log entries 95, 96, 97, 98 and 164. -/
def Obligations.StepsAndTelemetry : Prop :=
  (∀ s : State, Live s →
     (s.dev.demand < s.dev.pm.step →
       (s.dev.pm.mv = some s.dev.raiseMv → Completes .stepRaise s (fun t => OnlyPower s t ∧ t.dev.pm.step + 1 = s.dev.pm.step ∧
         RegsOutside s t [Reg.PM_EVENT])) ∧
       (s.dev.pm.mv ≠ some s.dev.raiseMv → Completes .stepRaise s (fun t => OnlyPower s t ∧ t.dev.pm.step = s.dev.pm.step ∧
         t.dev.pm.mv = some s.dev.raiseMv ∧ RegsOutside s t [Reg.PM_EVENT] ∧
         t.dev.out = (match s.dev.coreRail with
           | some r => [Out.avsVoltage r s.dev.raiseMv]
           | none => []) ++ s.dev.out))) ∧
     (s.dev.pm.step ≤ s.dev.demand → Completes .stepRaise s (fun t => t = after s s.dev)) ∧
     (s.dev.boostAllowed = true → 0 < s.dev.managedStep → s.dev.pm.step ≤ s.dev.managedStep → s.dev.starvedComp = false →
       s.dev.boostFits (s.dev.managedStep - 1) = true →
       Completes .boostStep s (fun t => OnlyPower s t ∧ t.dev.pm.boost = some (s.dev.managedStep - 1) ∧
         RegsOutside s t [Reg.PM_EVENT]))) ∧
  (∀ s : State, Live s →
     (∀ (comp : List Nat) (mem links sense : Nat), comp.length ≤ 8 →
       let k := s.dev.fld Reg.PM_EST_CORR Fld.PM_EST_CORR_K
       Completes (.estimate comp mem links sense) s (fun t =>
         t.dev.pm.compF = s.dev.pm.compF + comp.sum * k ∧ t.dev.pm.memF = s.dev.pm.memF + mem * k ∧
         t.dev.pm.linksF = s.dev.pm.linksF + links * k ∧ t.dev.pm.senseF = s.dev.pm.senseF + sense * k ∧ RegsOutside s t [Reg.PM_EVENT] ∧
         t.dev.mem = s.dev.mem ∧ t.dev.cores = s.dev.cores)) ∧
     (∀ readings : List (Option (Nat × Nat)),
       Completes (.telemetrySample readings) s (fun t => OnlyPower s t ∧
         t.dev.pm.compF = 0 ∧ t.dev.pm.memF = 0 ∧ t.dev.pm.linksF = 0 ∧ t.dev.pm.senseF = 0 ∧
         2 * t.dev.pm.capF = 25 * 4096 * s.dev.fld Reg.PM_CAP Fld.PM_CAP_CAP ∧
         t.dev.pm.droopLeft = s.dev.pm.droopLeft - 1 ∧ t.dev.pm.recent.length = Nat.min 100 (s.dev.pm.recent.length + 1))) ∧
     (∀ faults : BitVec 8,
       let bad := fun m : Nat => faults.getLsbD m && s.dev.railEnabled m &&
         decide (s.dev.fld (Reg.PM_RAILm_CFG m) Fld.PM_RAILm_CFG_PMBUS_ADDR ≠ 0)
       Completes (.pmbusPoll faults) s (fun t => OnlyPower s t ∧
         (∀ m, m < 8 → bit (t.dev.fld Reg.PM_RAIL_STATUS Fld.PM_RAIL_STATUS_FAULT) m = bad m) ∧
         ((∃ m, m < 8 ∧ bad m = true) → t.dev.pm.emergency = true ∧ 8 ≤ t.dev.pm.step ∧
           t.dev.fld Reg.PM_EVENT Fld.PM_EVENT_REG_FAULT = 1) ∧
         (∀ m, m < 8 → bad m = true →
           Out.clearFaults (s.dev.fld (Reg.PM_RAILm_CFG m) Fld.PM_RAILm_CFG_PMBUS_ADDR) ∈ t.dev.out) ∧
         ((∀ m, m < 8 → bad m = false) → t.dev.pm = s.dev.pm ∧ t.dev.out = s.dev.out)))) ∧
  (∀ s : State, Live s →
     (s.dev.pm.disagree = true → s.dev.pm.armed = true → Completes .telemetrySafeStep s (fun t => OnlyPower s t ∧
       t.dev.pm.safe = true ∧ t.dev.pm.armed = false ∧ 6 ≤ t.dev.pm.step)) ∧
     (∀ (p : Port) (v : Word),
       (s.dev.holdsSem0 p = true → Fld.PM_TELEM_ACK_ACK.get v = 1 → s.dev.pm.safe = true →
         Completes (.telemAck p v) s (fun t => OnlyPower s t ∧ t.dev.pm.safe = false ∧ t.dev.pm.step = Nat.max s.dev.pm.step t.dev.demand)) ∧
       (s.dev.holdsSem0 p = false → Completes (.telemAck p v) s (fun t => FieldIs s t Reg.PM_EVENT Fld.PM_EVENT_WR_REJECT 1))))

/-- R361 to R365: droop, supply warnings and the thermal levels demand their steps and are counted; a thermal trip stops every
job and the core memories and the Hamper lose their contents, which are free values from then on. Model's own readings in it:
log entries 4, 6 and 100. -/
def Obligations.DroopSuppliesAndHeat : Prop :=
  (∀ s : State, Live s →
     (∀ det : Fin 16,
       (s.dev.pm.droop.getLsbD det.val = false → Completes (.droopTrip det) s (fun t => OnlyPower s t ∧
         (∀ i, t.dev.pm.droop.getLsbD i = (s.dev.pm.droop.getLsbD i || decide (i = det.val))) ∧
         RegIs s t Reg.PM_DROOP_COUNT (s.dev.reg Reg.PM_DROOP_COUNT + 1))) ∧
       Completes (.droopDetectorClear det) s (fun t => OnlyPower s t ∧ t.dev.regs = s.dev.regs ∧
         ∀ i, t.dev.pm.droop.getLsbD i = (s.dev.pm.droop.getLsbD i && !decide (i = det.val)))) ∧
     Completes .droopPersistence s (fun t => OnlyPower s t ∧ t.dev.pm.droopLeft = 100 ∧
       Nat.min 8 (s.dev.pm.sust + 1) ≤ t.dev.pm.step ∧ RegsOutside s t [Reg.PM_EVENT]) ∧
     (∀ rail : Fin 4,
       Completes (.supplyWarn rail) s (fun t => OnlyPower s t ∧ t.dev.pm.warn = some 8 ∧ 8 ≤ t.dev.pm.step ∧
         (∀ i, t.dev.pm.below.getLsbD i = (s.dev.pm.below.getLsbD i || decide (i = rail.val))) ∧
         t.dev.reg64 Reg.PM_WARN_TIME_LO Reg.PM_WARN_TIME_HI = s.dev.time.toNat ∧
         t.dev.reg Reg.PM_WARN_COUNT = s.dev.reg Reg.PM_WARN_COUNT + 1 ∧ t.dev.fld Reg.PM_EVENT Fld.PM_EVENT_WARN = 1 ∧
         RegsOutside s t [Reg.PM_WARN_TIME_LO, Reg.PM_WARN_TIME_HI, Reg.PM_WARN_COUNT, Reg.PM_EVENT]) ∧
       Completes (.supplyRecover rail) s (fun t => OnlyPower s t ∧ t.dev.regs = s.dev.regs ∧
         ∀ i, t.dev.pm.below.getLsbD i = (s.dev.pm.below.getLsbD i && !decide (i = rail.val)))) ∧
     (∀ w : Nat, s.dev.pm.warn = some w → s.dev.pm.below = 0 →
       let rest := (s.dev.updPm (fun p => { p with warn := none })).demand
       Completes .warnRamp s (fun t => OnlyPower s t ∧ RegsOutside s t [Reg.PM_EVENT] ∧
         t.dev.pm.warn = if w - 1 ≤ rest then none else some (w - 1)))) ∧
  (∀ s : State, Live s →
     (∀ (temps : List Int), temps.length = 20 → (∀ x ∈ temps, -32768 ≤ x ∧ x < 32768) →
       Completes (.thermalSample temps) s (fun t => OnlyPower s t ∧
         (∀ x ∈ temps, x ≤ t.dev.tj) ∧ temps[t.dev.fld Reg.PM_TJ Fld.PM_TJ_SENSOR]? = some t.dev.tj ∧
         t.dev.pm.l1 = (s.dev.pm.l1 || decide (s.dev.t1 ≤ t.dev.tj)) ∧
         t.dev.pm.l2 = (decide (s.dev.t2 ≤ t.dev.tj) || (s.dev.pm.l2 && decide (s.dev.t2 - 24 ≤ t.dev.tj))) ∧
         (t.dev.pm.l2 = true → 8 ≤ t.dev.pm.step) ∧ (t.dev.pm.l1 = true → t.dev.pm.ceiling ≤ t.dev.pm.step) ∧
         RegsOutside s t [Reg.PM_TJ, Reg.PM_EVENT])) ∧
     (s.dev.pm.l1 = true → s.dev.t1 ≤ s.dev.tj → Completes .thermalCeilingStep s (fun t => OnlyPower s t ∧
       t.dev.pm.ceiling = Nat.min 8 (s.dev.pm.ceiling + 1) ∧ t.dev.pm.ceiling ≤ t.dev.pm.step ∧ t.dev.pm.l1 = true ∧
       RegsOutside s t [Reg.PM_EVENT])) ∧
     Completes .thermalTrip s (fun t => t.dev.tripped = true ∧ t.dev.jobs = [] ∧ t.dev.cores = [] ∧
       (∀ a, t.dev.byte a = if isCoreMem a = true ∨ isHamper a = true then Config.lostByte s.dev.ctr a else s.dev.byte a) ∧
       RegIs s t Reg.STC_ALIVE (Fld.STC_ALIVE_EN.put (s.dev.reg Reg.STC_ALIVE) 0)))

/-- R366: IDLE_RETAIN is entered by AUTO when the device is idle and left by a wake; DEEP needs SEM0 and an idle device, keeps
LPDDR6 and loses the core memories and the Hamper, whose bytes are free values from then on.
Model's own readings in it: log entries 6, 104, 105 and 106. -/
def Obligations.IdleStates : Prop :=
  ∀ s : State, Live s →
    (s.dev.pm.idle = 0 → s.dev.fld Reg.PM_IDLE_CTRL Fld.PM_IDLE_CTRL_AUTO = 1 →
      Completes .idleRetainEnter s (fun t => OnlyPower s t ∧ t.dev.regs = s.dev.regs ∧
        t.dev.pm.idle = if s.dev.idleReady = true then 1 else 0)) ∧
    (s.dev.pm.idle = 1 → Completes .idleWake s (fun t => t = after s (s.dev.updPm (fun p => { p with waking := true })))) ∧
    (s.dev.pm.idle = 2 → Completes .idleWake s (fun t => t = after s s.dev) ∧
      ∀ p : Port, Completes (.wake p) s (fun t => t = after s (s.dev.updPm (fun x => { x with waking := true })))) ∧
    (s.dev.pm.waking = true → Completes .wakeComplete s (fun t =>
      t = after s (s.dev.updPm (fun p => { p with idle := 0, waking := false })))) ∧
    (∀ p : Port,
      (s.dev.holdsSem0 p = true → s.dev.idleReady = true → s.dev.deepHeld = false →
        Completes (.deep p) s (fun t => t.dev.pm.idle = 2 ∧ t.dev.regs = s.dev.regs ∧ t.dev.queues = s.dev.queues ∧
          (∀ a, t.dev.byte a = if deepLost a = true then Config.lostByte s.dev.ctr a else s.dev.byte a) ∧ t.dev.units = s.dev.units)) ∧
      (s.dev.holdsSem0 p = false → Completes (.deep p) s (fun t => FieldIs s t Reg.PM_EVENT Fld.PM_EVENT_WR_REJECT 1)))

/-- R368, R370, R371, R375 to R377: TIME advances by 10 ns, RATE and SLEW at each TCLK edge, a step waits for the edge; FSYNC
pulses, PPS_OUT and the SYNC_OUT message follow TIME. Model's own readings in it: log entries 11, 107, 108, 109 and 110. -/
def Obligations.TimeBaseAndOutputs : Prop :=
  (∀ s : State, Live s →
     (s.dev.cps.step = none → Completes .bucketRefill s (fun t =>
       t.dev.time.toNat * 2 ^ 32 + t.dev.cps.frac.toNat =
         (s.dev.time.toNat * 2 ^ 32 + s.dev.cps.frac.toNat + (10 * 2 ^ 32 + s.dev.rate + s.dev.slewNow).toNat) % 2 ^ 96 ∧
       t.dev.cps.remain = s.dev.cps.remain - s.dev.slewNow ∧ t.dev.ticks = s.dev.ticks + 1)) ∧
     (∀ x : Int, s.dev.cps.step = some x → s.dev.bwrPend = [] → Completes .bucketRefill s (fun t =>
       t.dev.cps.step = none ∧ t.dev.cps.remain = 0 ∧
       t.dev.reg Reg.CPS_STEP_COUNT = s.dev.reg Reg.CPS_STEP_COUNT + 1 ∧
       t.dev.fld Reg.CPS_EVENT Fld.CPS_EVENT_STEPPED = 1 ∧ t.dev.fld Reg.CPS_STATUS Fld.CPS_STATUS_VALID = 1 ∧
       ∃ y : Nat, y * 2 ^ 32 + t.dev.cps.frac.toNat =
           (s.dev.time.toNat * 2 ^ 32 + s.dev.cps.frac.toNat + (10 * 2 ^ 32 + s.dev.rate + s.dev.slewNow).toNat) % 2 ^ 96 ∧
         (t.dev.time.toNat : Int) = (y + x) % 2 ^ 64 ∧
         ∀ n, n < 24 → t.dev.fsStart n = s.dev.fsStart n + ((t.dev.time.toNat : Int) - y))) ∧
     (∀ p : Port,
       let x := ((s.dev.regP p Reg.CPS_ADJ_HI) ++ (s.dev.regP p Reg.CPS_ADJ_LO)).toInt
       (s.dev.holdsSem0 p = true → s.dev.held = false → s.dev.fld Reg.CPS_CTRL Fld.CPS_CTRL_SOURCE = 0 →
         Completes (.slew p) s (fun t => t = after s (s.dev.updCps (fun c => { c with remain := x * 2 ^ 32 }))) ∧
         Completes (.step p) s (fun t => t = after s (s.dev.updCps (fun c => { c with step := some (x + c.step.getD 0) })))) ∧
       (s.dev.holdsSem0 p = false ∨ s.dev.held = true ∨ s.dev.fld Reg.CPS_CTRL Fld.CPS_CTRL_SOURCE ≠ 0 →
         ∀ c ∈ [Instr.slew p, .step p], Completes c s (fun t => FieldIs s t Reg.CPS_EVENT Fld.CPS_EVENT_WR_REJECT 1)))) ∧
  (∀ s : State, Live s →
     (∀ n : Fin 24,
       (s.dev.fsPeriodic n = true → s.dev.fsDue n ≤ s.dev.time.toNat → s.dev.fw.stopping = false →
         ((s.dev.fsync n).active = false → Completes (.fsyncPulseStart n) s (fun t =>
           t.dev.fsync n = { s.dev.fsync n with
             k := (s.dev.fsync n).k + 1, active := true
             endAt := (s.dev.fsDue n + (s.dev.reg (Reg.CPS_FSYNCn_WIDTH n)).toNat).toNat } ∧
           (∀ m, m ≠ n.val → t.dev.fsync m = s.dev.fsync m) ∧
           RegIs s t (Reg.CPS_FSYNCn_COUNT n) (s.dev.reg (Reg.CPS_FSYNCn_COUNT n) + 1))) ∧
         ((s.dev.fsync n).active = true → Completes (.fsyncPulseStart n) s (fun t =>
           t.dev.fsync n = { s.dev.fsync n with k := (s.dev.fsync n).k + 1 } ∧ t.dev.regs = s.dev.regs))) ∧
       ((s.dev.fsync n).active = true → (s.dev.fsync n).endAt ≤ s.dev.time.toNat → Completes (.fsyncPulseEnd n) s (fun t =>
         t.dev.fsync n = { s.dev.fsync n with active := false } ∧ t.dev.regs = s.dev.regs ∧
         ∀ m, m ≠ n.val → t.dev.fsync m = s.dev.fsync m))) ∧
     (s.dev.ppsEn = true → s.dev.fw.stopping = false → s.dev.cps.ppsNext ≤ s.dev.time.toNat / 1000000000 →
       s.dev.cps.ppsTick = none →
       Completes .ppsOutPulse s (fun t => t.dev.cps.ppsTick = some s.dev.ticks ∧ t.dev.cps.syncDue = true ∧
         t.dev.cps.ppsNext = s.dev.time.toNat / 1000000000 + 1 ∧
         t.dev.cps.ppsOff = some (s.dev.ticks + s.dev.fld Reg.CPS_PPS_CTRL Fld.CPS_PPS_CTRL_WIDTH_MS * 100000) ∧
         t.dev.cps.ppsTime.toNat = s.dev.time.toNat / 1000000000 * 1000000000 ∧ t.dev.regs = s.dev.regs)) ∧
     (s.dev.cps.syncDue = true → s.dev.fld Reg.CPS_SYNC_CTRL Fld.CPS_SYNC_CTRL_EN = 1 → s.dev.fw.stopping = false →
       Completes .syncOutMessage s (fun t => t.dev.out = .syncOut s.dev.syncMessage :: s.dev.out ∧
         t.dev.cps = { s.dev.cps with
           syncDue := false, syncSeq := (s.dev.cps.syncSeq + 1) % 256
           syncMsg := some (s.dev.ticks, s.dev.syncBaud, s.dev.syncMessage) } ∧
         t.dev.regs = s.dev.regs ∧ s.dev.syncMessage.take 2 = [0xA5#8, 0x5C#8])))

/-- R372, R373, R378: a selected edge pushes a stamp, a full FIFO counts it lost; an accepted REF_PPS edge shows its error and
sets RATE from TRIM, the error and the integral; a lost reference leaves RATE to the integral. Model's own readings in it: log
entries 10, 111, 112, 113 and 163. -/
def Obligations.StampsAndPpsDiscipline : Prop :=
  (∀ s : State, Live s →
     (∀ (e : Fin 8) (sub : Fin 8) (fall : Bool),
       s.dev.fld (Reg.CPS_EVTe_CTRL e) Fld.CPS_EVTe_CTRL_EN = 1 →
       s.dev.fld (Reg.CPS_EVTe_CTRL e) Fld.CPS_EVTe_CTRL_EDGE ≠ 3 →
       let l := Tbl.getD s.dev.cps.fifo e.val []
       (edgeSelects (s.dev.fld (Reg.CPS_EVTe_CTRL e) Fld.CPS_EVTe_CTRL_EDGE) fall = true →
         (l.length < 64 → Completes (.eventEdge e sub fall) s (fun t => t.dev.regs = s.dev.regs ∧
           ∀ k, Tbl.getD t.dev.cps.fifo k [] =
             if k = e.val then l ++ [{ time := s.dev.time, sub := sub.val, fall := fall }] else Tbl.getD s.dev.cps.fifo k [])) ∧
         (64 ≤ l.length → Completes (.eventEdge e sub fall) s (fun t => t.dev.cps = s.dev.cps ∧
           t.dev.fld (Reg.CPS_EVTe_INFO e) Fld.CPS_EVTe_INFO_OVF =
             Nat.min 65535 (s.dev.fld (Reg.CPS_EVTe_INFO e) Fld.CPS_EVTe_INFO_OVF + 1) ∧
           t.dev.fld Reg.CPS_EVENT Fld.CPS_EVENT_EVT_OVF = 1))) ∧
       (edgeSelects (s.dev.fld (Reg.CPS_EVTe_CTRL e) Fld.CPS_EVTe_CTRL_EDGE) fall = false →
         Completes (.eventEdge e sub fall) s (fun t => t.dev.cps = s.dev.cps ∧ t.dev.regs = s.dev.regs)))) ∧
  (∀ s : State, Live s →
     (∀ sub : Fin 8, s.dev.refPps = true →
       let e := ppsError (s.dev.edgeTime sub)
       (s.dev.cps.lastEdge = none → s.dev.fld Reg.CPS_CTRL Fld.CPS_CTRL_STEP_EN = 0 →
         let i := clampI (-2147483648) 2147483647 (s.dev.cps.integ + e)
         Completes (.refPpsEdge sub) s (fun t => (t.dev.reg Reg.CPS_REF_ERR).toInt = e ∧ t.dev.cps.integ = i ∧
           t.dev.cps.lastEdge = some s.dev.ticks ∧
           t.dev.rate = clampI (-21474836) 21474836 (s.dev.trim - shI e s.dev.gp - shI i s.dev.gi) ∧ t.dev.time = s.dev.time)) ∧
       (∀ k, s.dev.cps.lastEdge = some k → s.dev.ticks - k < 99900000 → Completes (.refPpsEdge sub) s (fun t =>
         FieldIs s t Reg.CPS_EVENT Fld.CPS_EVENT_REF_GLITCH 1)) ∧
       (s.dev.cps.lastEdge ≠ none → s.dev.ppsState ≠ 3 → Completes .refLost s (fun t => t.dev.ppsState = 3 ∧
         t.dev.rate = clampI (-21474836) 21474836 (s.dev.trim - shI s.dev.cps.integ s.dev.gi) ∧
         t.dev.fld Reg.CPS_EVENT Fld.CPS_EVENT_REF_LOST = 1 ∧ t.dev.time = s.dev.time))) ∧
     (∀ sub : Fin 8, s.dev.refPps = false → (Tbl.getD s.dev.cps.fifo 8 []).length < 64 →
       Completes (.refPpsEdge sub) s (fun t => t.dev.regs = s.dev.regs ∧
         Tbl.getD t.dev.cps.fifo 8 [] = Tbl.getD s.dev.cps.fifo 8 [] ++ [{ time := s.dev.time, sub := sub.val, fall := false }])))

/-- R379: a read of CPS_EVTe_STAMP_LO pops the oldest stamp, returns its low half, and latches its high half and SUB for the
reading port; a read of an empty FIFO returns 0 with EMPTY set and pops nothing. -/
def Obligations.StampPop : Prop :=
  ∀ (s : State) (p : Port) (e : Fin 9), Live s →
    (∀ (x : Stamp) (rest : List Stamp), Tbl.getD s.dev.cps.fifo e.val [] = x :: rest → x.sub < 8 →
      Completes (.stampPop p e) s (fun t => t.dev.out = .regData p (x.time.setWidth 32) :: s.dev.out ∧
        (∀ k, Tbl.getD t.dev.cps.fifo k [] = if k = e.val then rest else Tbl.getD s.dev.cps.fifo k []) ∧
        t.dev.latched p (Reg.CPS_EVTe_STAMP_LO e) = (x.time >>> 32).setWidth 32 ∧
        Fld.CPS_EVTe_INFO_SUB.get (t.dev.evtInfo p e) = x.sub ∧ Fld.CPS_EVTe_INFO_EMPTY.get (t.dev.evtInfo p e) = 0 ∧
        t.dev.port p.other = s.dev.port p.other ∧ t.dev.regs = s.dev.regs)) ∧
    (Tbl.getD s.dev.cps.fifo e.val [] = [] → Completes (.stampPop p e) s (fun t =>
      t.dev.out = .regData p 0 :: s.dev.out ∧ t.dev.cps = s.dev.cps ∧
      Fld.CPS_EVTe_INFO_EMPTY.get (t.dev.evtInfo p e) = 1 ∧ t.dev.port p.other = s.dev.port p.other ∧ t.dev.regs = s.dev.regs))

/-- R384 to R386, R389: a port that is enabled trains, comes up and is lost; every packet it sends acknowledges and returns
credits, a LINK takes the acknowledged packets out of the replay buffer, a LINK_NAK sends the rest again, a packet with a CRC
error is counted and answered with LINK_NAK.
Model's own readings in it: log entries 10, 115, 119 and 120. -/
def Obligations.FabricLinks : Prop :=
  ∀ (s : State) (p : Fin 4), Live s →
    let st := Reg.FAB_PORTp_STATUS p
    let x := s.dev.fport p
    let own := fun (k : FPkt) => k.ty ≤ 1 ∧ k.src = s.dev.fabId ∧ k.lack = (x.rx + 65535) % 65536 ∧ k.credReq = Nat.min 1023 x.owe0 ∧
      k.credRsp = Nat.min 1023 x.owe1
    let rest := fun (k : FPkt) => x.sent.dropWhile (fun e => decide ((k.lack + 65536 - e.1.lseq) % 65536 < 32768))
    (s.dev.linkState p = 0 → s.dev.portEnabled p = true → s.dev.fw.stopping = false →
      Completes (.fabPortTrain p) s (fun t => OnlyRegs s t ∧ RegIs s t st 1 ∧ t.dev.linkState p = 1)) ∧
    (∀ (width : Fin 3) (gen : Bool), s.dev.linkState p = 1 → Completes (.fabPortUp p width gen) s (fun t => FabricSent s t ∧
      t.dev.linkUp p = true ∧ t.dev.reg st = BitVec.ofNat 32 (2 + 4 * width.val + 16 * b2n gen) ∧
      t.dev.fld Reg.FAB_EVENT Fld.FAB_EVENT_LINK_UP = 1 ∧ RegsOutside s t [st, Reg.FAB_EVENT] ∧
      (let hello : FPkt := { ty := 0x30, vc := 1, src := s.dev.fabId, payload := s.dev.helloPayload }
       t.dev.fport p = { sent := [(hello, 0)], greeted := true, tx := 1, cr1 := 127 } ∧
       t.dev.out = .fabric p { hello with lack := 65535 } { hello with lack := 65535 }.bytes :: s.dev.out) ∧
      ∀ q, q ≠ p.val → t.dev.fport q = s.dev.fport q)) ∧
    (s.dev.linkUp p = true →
      Completes (.fabPortDown p) s (fun t => t.dev.linkState p = 0 ∧
        t.dev.reg (Reg.FAB_PORTp_DOWNS p) = s.dev.reg (Reg.FAB_PORTp_DOWNS p) + 1 ∧
        t.dev.fld Reg.FAB_EVENT Fld.FAB_EVENT_LINK_DOWN = 1 ∧ (FabQuiet s → t.dev.mem = s.dev.mem)) ∧
      Completes (.linkKeepalive p) s (fun t => ∃ k, t.dev.out = .fabric p k k.bytes :: s.dev.out ∧ own k ∧ t.dev.regs = s.dev.regs ∧
        t.dev.fport p = { x with owe0 := x.owe0 - k.credReq, owe1 := x.owe1 - k.credRsp } ∧
        ∀ q, q ≠ p.val → t.dev.fport q = s.dev.fport q) ∧
      Completes (.packetCrcError p none) s (fun t => RegIs s t (Reg.FAB_PORTp_CRC_ERR p) (s.dev.reg (Reg.FAB_PORTp_CRC_ERR p) + 1) ∧
        ∃ k, t.dev.out = .fabric p k k.bytes :: s.dev.out ∧ own k ∧ k.ty = 1) ∧
      (∀ k : FPkt, k.resv = true → ∀ c ∈ [Instr.link p k, .linkNak p k], Completes c s (fun t =>
        t = after s s.dev.dropPkt ∧ t.dev.reg Reg.FAB_DROPS = s.dev.reg Reg.FAB_DROPS + 1)) ∧
      (∀ k : FPkt, k.resv = false → FabQuiet s →
        Completes (.link p k) s (fun t => OnlyFabric s t ∧ t.dev.regs = s.dev.regs ∧
          t.dev.fport p = { x with sent := rest k, cr0 := x.cr0 + k.credReq, cr1 := x.cr1 + k.credRsp } ∧
          ∀ q, q ≠ p.val → t.dev.fport q = s.dev.fport q) ∧
        ((∀ e ∈ rest k, e.2 < 8) → Completes (.linkNak p k) s (fun t =>
          RegIs s t (Reg.FAB_PORTp_RETRIES p) (s.dev.reg (Reg.FAB_PORTp_RETRIES p) + BitVec.ofNat 32 (rest k).length) ∧
          (t.dev.fport p).sent = (rest k).map (fun e => (e.1, e.2 + 1)) ∧
          t.dev.out.length = s.dev.out.length + (rest k).length))))

/-- R393, R394, R400, R401: a WRITE to this device, in order and inside an inbound window, changes exactly its bytes and advances
the expected number; outside every window it is refused and counted; a FLAG sets its event flag; a WRITE for another device leaves
on the port of its route with one hop less.
Model's own readings in it: log entries 17, 117 and 118. -/
def Obligations.FabricDelivery : Prop :=
  ∀ (s : State) (p : Fin 4) (k : FPkt), Live s → InOrder s p k → s.dev.isolated = false → k.resv = false → k.mcast = false →
    (k.dst = s.dev.fabId → s.dev.fab.loop = [] → (Tbl.find? s.dev.fab.expected (ackKey k)).all (fun e => k.start || decide (k.eseq = e)) = true →
      s.dev.poison = [] →
      (s.dev.inWindow k.addr k.payload.length = true → Completes (.write p k) s (fun t =>
        (∀ i b, k.payload[i]? = some b → t.dev.byte (k.addr + i) = b) ∧ SameOutside s t k.addr k.payload.length ∧
        Tbl.find? t.dev.fab.expected (ackKey k) = some ((k.eseq + 1) % 65536) ∧ t.dev.flags = s.dev.flags)) ∧
      (s.dev.inWindow k.addr k.payload.length = false → Completes (.write p k) s (fun t =>
        (k.src ≠ s.dev.fabId → t.dev.mem = s.dev.mem) ∧
        t.dev.reg Reg.FAB_IN_REFUSED = s.dev.reg Reg.FAB_IN_REFUSED + 1 ∧ t.dev.fab.expected = s.dev.fab.expected)) ∧
      (s.dev.fabFlagOk (k.addr % 2 ^ 18) = true → Completes (.flag p k) s (fun t => t.dev.mem = s.dev.mem ∧
        (∀ f, t.dev.flag f = (s.dev.flag f || decide (f = k.addr % 2 ^ 18))) ∧
        Tbl.find? t.dev.fab.expected (ackKey k) = some ((k.eseq + 1) % 65536))) ∧
      (s.dev.fabFlagOk (k.addr % 2 ^ 18) = false → Completes (.flag p k) s (fun t => t.dev.flags = s.dev.flags ∧
        t.dev.reg Reg.FAB_IN_REFUSED = s.dev.reg Reg.FAB_IN_REFUSED + 1))) ∧
    (∀ q : Nat, k.dst ≠ s.dev.fabId → k.hops ≠ 0 → FabQuiet s → s.dev.routeTo k.dst = some q → q ≠ p.val →
      Greeted s q → (s.dev.fport q).fits { k with vc := 0 } = true →
      Completes (.write p k) s (fun t => t.dev.mem = s.dev.mem ∧ ∃ y, t.dev.out = .fabric q y y.bytes :: s.dev.out ∧
        y.ty = 0x10 ∧ y.dst = k.dst ∧ y.src = k.src ∧ y.hops + 1 = k.hops ∧ y.payload = k.payload ∧ y.addr = k.addr ∧
        y.eseq = k.eseq ∧ y.lseq = (s.dev.fport q).tx))

/-- R385, R398, R399, R402, R403: ACK and NAK act on the send ring that they name, PRUNED, JOIN, PRUNE and MCAST_JOIN on the pruned
branches; a packet of an unassigned type is dropped and counted.
Model's own readings in it: log entries 116 and 121. -/
def Obligations.FabricRepliesAndPruning : Prop :=
  (∀ (s : State) (p : Fin 4) (k : FPkt), Live s → InOrder s p k → s.dev.isolated = false → k.resv = false → k.mcast = false →
     k.dst = s.dev.fabId → FabQuiet s →
     Completes (.packetCrcError p (some k)) s (fun t => RegIs s t Reg.FAB_DROPS (s.dev.reg Reg.FAB_DROPS + 1) ∧
       t.dev.mem = s.dev.mem ∧ t.dev.fab.rings = s.dev.fab.rings) ∧
     Completes (.ack p k) s (fun t => t.dev.regs = s.dev.regs ∧ t.dev.mem = s.dev.mem ∧
       (t.dev.sring k.ring).unacked = (s.dev.sring k.ring).unacked.filter (fun e =>
         !(decide (e.2.dst = k.src) && decide ((k.eseq + 65536 - e.2.eseq) % 65536 < 32768))) ∧
       ∀ r, r ≠ k.ring → t.dev.sring r = s.dev.sring r) ∧
     (∀ x : SDesc, k.ring < 16 → (k.addr % 256 = 1 ∨ k.addr % 256 = 4) → (s.dev.sring k.ring).about k false = some x →
       s.dev.poison = [] →
       Completes (.nak p k) s (fun t => t.dev.fld (Reg.FAB_SRINGr_STATUS k.ring) Fld.FAB_SRINGr_STATUS_STATE = 2 ∧
         t.dev.fld (Reg.FAB_SRINGr_STATUS k.ring) Fld.FAB_SRINGr_STATUS_LAST_ERR = 5 ∧ t.dev.byte (x.off + 0x28) = 5 ∧
         SameOutside s t (x.off + 0x28) 1 ∧ t.dev.fld Reg.FAB_EVENT Fld.FAB_EVENT_RING_ERR = 1)) ∧
     (k.group < 256 → Completes (.pruned p k) s (fun t => t.dev.mem = s.dev.mem ∧
       t.dev.reg (Reg.FAB_MCAST_PRUNED (k.group / 32)) =
         s.dev.reg (Reg.FAB_MCAST_PRUNED (k.group / 32)) ||| BitVec.ofNat 32 (2 ^ (k.group % 32)) ∧
       Tbl.find? t.dev.fab.pruner k.group = some k.src ∧ t.dev.fld Reg.FAB_EVENT Fld.FAB_EVENT_PRUNED = 1)) ∧
     Completes (.join p k) s (fun t => t.dev.regs = s.dev.regs ∧ t.dev.mem = s.dev.mem ∧
       Tbl.find? t.dev.fab.pruned (4 * k.group + p.val) = none ∧
       ∀ g q, g ≠ k.group → q < 4 → Tbl.find? t.dev.fab.pruned (4 * g + q) = Tbl.find? s.dev.fab.pruned (4 * g + q))) ∧
  (∀ s : State, Live s →
     (∀ (group : Fin 256) (port : Fin 4) (told : List (Fin 4096)), bit (s.dev.mcastEntry group) 5 = true →
       (∃ w ∈ s.dev.fab.mwait, w.k.group = group.val ∧ port.val ∈ w.left) → s.dev.fab.loop = [] →
       Completes (.prune group port told) s (fun t =>
         Tbl.find? t.dev.fab.pruned (4 * group.val + port.val) = some (told.map (fun x => x.val)) ∧
         (∀ w ∈ t.dev.fab.mwait, w.k.group = group.val → port.val ∉ w.left) ∧
         t.dev.fld Reg.FAB_EVENT Fld.FAB_EVENT_PRUNE_DONE = 1 ∧ t.dev.mem = s.dev.mem)) ∧
     (∀ (p : Port) (group : Fin 256), (s.dev.port p).lost = false →
       (∀ src, s.dev.mayWrite p 8 0 = true → Tbl.find? s.dev.fab.pruner group.val = some src →
         Completes (.mcastJoin p group) s (fun t => (s.dev.fab.loop = [] → t.dev.mem = s.dev.mem) ∧ Tbl.find? t.dev.fab.pruner group.val = none ∧
           t.dev.reg (Reg.FAB_MCAST_PRUNED (group.val / 32)) =
             s.dev.reg (Reg.FAB_MCAST_PRUNED (group.val / 32)) &&& ~~~ BitVec.ofNat 32 (2 ^ (group.val % 32)))) ∧
       (s.dev.mayWrite p 8 0 = false → Completes (.mcastJoin p group) s (fun t =>
         FieldIs s t Reg.FAB_EVENT Fld.FAB_EVENT_WR_REJECT 1))))

/-- R390 to R392, R404 to R406: HELLO gives the neighbour and its advertisement, a silent root is forgotten; time packets
measure the delay and the first TIME_SYNC that a follower accepts steps TIME by the error. Model's own readings in it: log
entries 10, 122, 124 and 125. -/
def Obligations.FabricElectionAndTime : Prop :=
  (∀ (s : State), Live s →
     (∀ (p : Fin 4) (k : FPkt), InOrder s p k → k.resv = false →
       let w := fun i => wordAt k.payload i
       bits (w 0) 20 12 = 0 → bits (w 0xC) 24 8 = 0 → w 0x1C = 0 →
       Completes (.hello p k) s (fun t =>
         t.dev.fld (Reg.FAB_PORTp_STATUS p) Fld.FAB_PORTp_STATUS_NBR_ID = w 0 % 4096 ∧ t.dev.nbrValid p = true ∧
         (t.dev.fport p).advert = some { rootId := w 0xC % 4096, rootPrio := bits (w 0xC) 12 8, dist := bits (w 0xC) 20 4,
                                         rootUid := w 0x10 + w 0x14 * 2 ^ 32, beacon := w 0x18 } ∧
         t.dev.isolated = (s.dev.isolated || (decide (w 0 % 4096 = s.dev.fabId) &&
           decide (w 4 + w 8 * 2 ^ 32 < Config.uid.toNat))) ∧ t.dev.mem = s.dev.mem)) ∧
     (FabQuiet s → Completes .helloSend s (fun t => t.dev.mem = s.dev.mem ∧ ∀ p, p < 4 → s.dev.linkUp p = true →
       (s.dev.fport p).fits { ty := 0x30, vc := 1, payload := s.dev.helloPayload } = true →
       ∃ k : FPkt, Out.fabric p k k.bytes ∈ t.dev.out ∧ k.ty = 0x30 ∧ k.src = s.dev.fabId ∧ k.payload = s.dev.helloPayload)) ∧
     Completes .beacon s (fun t => OnlyFabric s t ∧ t.dev.regs = s.dev.regs ∧
       t.dev.fab = { s.dev.fab with beacon := if s.dev.isRoot = true then (s.dev.fab.beacon + 1) % 2 ^ 32 else s.dev.fab.beacon }) ∧
     (∀ r : Nat × Nat × Nat, s.dev.fab.root = some r → s.dev.isRoot = false → s.dev.fabPrio ≠ 0 →
       (∀ (p : Nat) (a : Advert), p < 4 → (s.dev.fport p).advert = some a → a.rootUid = r.2.1 ∧ a.beacon ≤ s.dev.fab.beacon) →
       Completes .rootTimeout s (fun t => (∀ u, Tbl.find? t.dev.fab.forgot u =
           if u = r.2.1 then some s.dev.fab.beacon else Tbl.find? s.dev.fab.forgot u) ∧ t.dev.isRoot = true ∧
         t.dev.follower = false ∧ t.dev.fld Reg.FAB_STATUS Fld.FAB_STATUS_ROOT_ID = s.dev.fabId ∧
         t.dev.fld Reg.FAB_STATUS Fld.FAB_STATUS_ROOT_DIST = 0))) ∧
  (∀ (s : State) (sub : Fin 8), Live s →
     (FabQuiet s → s.dev.isRoot = true → Completes (.timeSyncSend sub) s (fun t => t.dev.time = s.dev.time ∧ t.dev.mem = s.dev.mem ∧
       ∀ p, p < 4 → Greeted s p →
         (s.dev.fport p).fits { ty := 0x20, vc := 1, payload := List.replicate 16 0 } = true →
         ∃ k : FPkt, Out.fabric p k k.bytes ∈ t.dev.out ∧ k.ty = 0x20 ∧ k.payload.take 8 = leBytes 8 s.dev.time.toNat ∧
           wordAt k.payload 8 % 8 = sub.val)) ∧
     (∀ p : Fin 4, s.dev.linkUp p = true → Completes (.delayMeasure p sub) s (fun t =>
       t.dev.time = s.dev.time ∧ t.dev.mem = s.dev.mem ∧
       (FabQuiet s → Greeted s p → (s.dev.fport p).fits { ty := 0x21, vc := 1 } = true →
         (t.dev.fport p).t1 = some (8 * s.dev.time.toNat + 10 * sub.val) ∧
         ∃ y : FPkt, t.dev.out = .fabric p y y.bytes :: s.dev.out ∧ y.ty = 0x21 ∧
           y.stamps = [8 * s.dev.time.toNat + 10 * sub.val]))) ∧
     (∀ (p : Fin 4) (k : FPkt), InOrder s p k → k.resv = false →
       (∀ subOut : Fin 8, FabQuiet s → Greeted s p → (s.dev.fport p).fits { ty := 0x22, vc := 1 } = true →
         Completes (.timeReq p k sub subOut) s (fun t => t.dev.time = s.dev.time ∧
           ∃ y : FPkt, t.dev.out = .fabric p y y.bytes :: s.dev.out ∧ y.ty = 0x22 ∧
             y.stamps = [8 * s.dev.time.toNat + 10 * sub.val, 8 * s.dev.time.toNat + 10 * subOut.val])) ∧
       (∀ t1 t2 t3 : Nat, (s.dev.fport p).t1 = some t1 → k.stamps = [t2, t3] → (s.dev.fport p).time = [] →
         let m : Int := ((8 * s.dev.time.toNat + 10 * sub.val : Nat) : Int) - t1 - (t3 - t2)
         Completes (.timeRsp p k sub) s (fun t => (t.dev.fport p).t1 = none ∧
           (t.dev.fport p).delays = (m :: (s.dev.fport p).delays).take 8 ∧
           ((s.dev.fport p).delays = [] → m % 2 = 0 →
             t.dev.fld (Reg.FAB_PORTp_DELAY p) Fld.FAB_PORTp_DELAY_DELAY = (m / 2 % 2 ^ 24).toNat))) ∧
       (let ts := wordAt k.payload 0 + wordAt k.payload 4 * 2 ^ 32
        let w := wordAt k.payload 8
        let e8 : Int := ((8 * s.dev.time.toNat + 10 * sub.val : Nat) : Int) -
          (8 * ts + 10 * (w % 8) + s.dev.fld (Reg.FAB_PORTp_DELAY p) Fld.FAB_PORTp_DELAY_DELAY : Nat)
        bits w 5 27 = 0 → wordAt k.payload 12 = 0 → e8 % 8 = 0 →
        (s.dev.follower = true → s.dev.parent = p.val → bit w 3 = true → s.dev.fab.synced = false →
          Completes (.timeSync p k sub) s (fun t => (t.dev.time.toNat : Int) = (s.dev.time.toNat - e8 / 8) % 2 ^ 64 ∧
            t.dev.fab.synced = true ∧ t.dev.fld Reg.CPS_STATUS Fld.CPS_STATUS_VALID = 1)) ∧
        (s.dev.follower = false ∨ s.dev.parent ≠ p.val ∨ bit w 3 = false →
          Completes (.timeSync p k sub) s (fun t => t.dev.time = s.dev.time ∧ t.dev.cps = s.dev.cps)))))

/-- R396 to R399: a send ring starts its next descriptor and cuts its data into packets; a descriptor whose packets are all
acknowledged completes with status 1; sixteen periods without progress stop the ring.
Model's own readings in it: log entries 10, 126 and 127. -/
def Obligations.SendRings : Prop :=
  ∀ (s : State) (r : Fin 16), Live s → s.dev.poison = [] →
    let x := s.dev.sring r
    let off := s.dev.ringAddr r x.next
    let raw := s.dev.bytes agentFab off 64
    let f := sendFields raw
    (∀ c ∈ [(1, Instr.sendWrite r), (2, .sendFlag r), (3, .sendWriteFlag r)], s.dev.ringReady r = true →
      f.op = c.1 → sendReserved raw = false → f.mc = false → f.dst ≠ s.dev.fabId → s.dev.fab.loop = [] →
      (f.waitEn = true → s.dev.flag f.waitFlag = true) →
      (f.writes = true → 0 < f.len ∧ f.len ≤ 16777216 ∧ s.dev.firstBad f.src f.len = none) →
      Completes c.2 s (fun t => (t.dev.sring r).next = (x.next + 1) % 2 ^ 32 ∧
        (t.dev.sring r).descs = x.descs ++ [{ idx := x.next, off := off, mc := false, lflag := if f.lflagEn then some f.lflag else none }] ∧
        (t.dev.sring r).unacked.map (fun e => (e.1, e.2.addr, e.2.payload)) =
          x.unacked.map (fun e => (e.1, e.2.addr, e.2.payload)) ++
            (s.dev.sendPackets r f).map (fun k => (x.next, k.addr, k.payload)) ∧
        (∀ q, q ≠ r.val → t.dev.sring q = s.dev.sring q) ∧ t.dev.mem = s.dev.mem)) ∧
    (s.dev.ringReady r = true → f.op = 2 → sendReserved raw = false → f.mc = false → f.dst = s.dev.fabId → s.dev.fab.loop = [] →
      (f.waitEn = true → s.dev.flag f.waitFlag = true) → s.dev.fabFlagOk f.rflag = true →
      Tbl.find? s.dev.fab.expected (16 * s.dev.fabId + r.val) = none →
      Completes (.sendFlag r) s (fun t => (t.dev.sring r).next = (x.next + 1) % 2 ^ 32 ∧
        (∀ k, t.dev.flag k = (s.dev.flag k || decide (k = f.rflag))) ∧
        Tbl.find? t.dev.fab.expected (16 * s.dev.fabId + r.val) = some ((Tbl.getD x.seqs f.dst 0 + 1) % 65536))) ∧
    (∀ (y : SDesc) (rest : List SDesc), x.descs = y :: rest → y.mc = false → (∀ e ∈ x.unacked, e.1 ≠ y.idx) →
      Completes (.sendComplete r) s (fun t => (t.dev.sring r).descs = rest ∧ t.dev.byte (y.off + 0x28) = 1 ∧
        SameOutside s t (y.off + 0x28) 1 ∧ t.dev.reg (Reg.FAB_SRINGr_CONS r) = s.dev.reg (Reg.FAB_SRINGr_CONS r) + 1 ∧
        ∀ k, t.dev.flag k = (s.dev.flag k || (decide (y.lflag = some k))))) ∧
    (∀ (e : Nat × FPkt) (l : List (Nat × FPkt)), x.unacked = e :: l →
      (x.periods < 15 → s.dev.fab.loop = [] → (∀ y ∈ x.unacked, y.2.dst ≠ s.dev.fabId) → Completes (.resendTimeout r) s (fun t => (t.dev.sring r).periods = x.periods + 1 ∧
        (t.dev.sring r).unacked = x.unacked ∧ t.dev.regs = s.dev.regs ∧ t.dev.mem = s.dev.mem)) ∧
      (∀ y, x.periods = 15 → x.descs.find? (fun z => decide (z.idx = e.1)) = some y → Completes (.resendTimeout r) s (fun t =>
        t.dev.fld (Reg.FAB_SRINGr_STATUS r) Fld.FAB_SRINGr_STATUS_STATE = 2 ∧
        t.dev.fld (Reg.FAB_SRINGr_STATUS r) Fld.FAB_SRINGr_STATUS_LAST_ERR = 6 ∧ t.dev.byte (y.off + 0x28) = 6 ∧
        (t.dev.sring r).unacked = [] ∧ t.dev.fld Reg.FAB_EVENT Fld.FAB_EVENT_RING_ERR = 1)))

/-- R409, R412 to R415: a load is started by the holder of SEM0 in WAIT_IMAGE; its verification gives the first check that fails
or begins the image, which sets fuses or leaves OTP_SKIPPED; firmware that is ready runs; a watchdog or a QM check restarts it,
the third restart in a minute fails it; a calibration command of a restart waits. Model's own readings in it: log entries 128,
131, 132, 134 and 162. -/
def Obligations.FirmwareLoadAndRestart : Prop :=
  ∀ s : State, Live s →
    (∀ (p : Port) (v : Word),
      (s.dev.holdsSem0 p = true → s.dev.fwState = 0 → Fld.FW_LOAD_GO.get v = 1 → s.dev.fw.booted = true → s.dev.bootFailed = false →
        Completes (.fwLoad p v) s (fun t => t.dev.fw = { s.dev.fw with loading := some (Fld.FW_LOAD_LENGTH.get v) } ∧
          t.dev.fwState = 1 ∧ RegsOutside s t [Reg.FW_STATUS] ∧ t.dev.mem = s.dev.mem)) ∧
      (s.dev.holdsSem0 p = false ∨ s.dev.fwState ≠ 0 →
        Completes (.fwLoad p v) s (fun t => FieldIs s t Reg.FW_EVENT Fld.FW_EVENT_WR_REJECT 1))) ∧
    (∀ (vpp : Bool) (len : Nat), s.dev.fw.loading = some len →
      let l := s.dev.fwBytes loadArea 4096
      let h := imgHeader l
      let code := s.dev.imageCode 1 len l (s.dev.fwBytes (loadArea + 4096) (len - 4096))
      Completes (.fwVerifyDone {} vpp) s (fun t => t.dev.fw.loading = none ∧
        t.dev.reg Reg.FW_LOAD_RESULT = BitVec.ofNat 32 code ∧ t.dev.mem = s.dev.mem ∧
        (code ≠ 1 → t.dev.fwState = 0 ∧ t.dev.fw.image = s.dev.fw.image ∧ t.dev.keep = s.dev.keep) ∧
        (code = 1 → t.dev.fwState = 2 ∧ t.dev.reg Reg.FW_VERSION = BitVec.ofNat 32 h.version ∧ t.dev.fw.image = imgOf l ∧
          t.dev.otpSvn = (if h.roll && vpp then Nat.max s.dev.otpSvn (Nat.min 64 h.svn) else s.dev.otpSvn) ∧
          (h.roll = true → vpp = false → s.dev.otpSvn < Nat.min 64 h.svn →
            t.dev.fld Reg.FW_STATUS Fld.FW_STATUS_OTP_SKIPPED = 1)))) ∧
    (s.dev.fwState = 2 ∨ s.dev.fwState = 4 → Completes .firmwareReady s (fun t => t.dev.fwRunning = true ∧
      t.dev.fld Reg.STC_ALIVE Fld.STC_ALIVE_EN = 1 ∧ t.dev.fw.calWait = [] ∧
      (s.dev.fw.calWait = [] → t.dev.mem = s.dev.mem ∧
        (s.dev.fwState = 4 → t.dev.keep = s.dev.keep ∧ RegsOutside s t [Reg.FW_STATUS, Reg.STC_ALIVE])))) ∧
    (s.dev.fwState = 4 → s.dev.awake = true → ∀ (p : Port) (ok : Bool),
      ∀ c ∈ [(Instr.store p [] [] ok, some ok), (.read p, none)], Completes c.1 s (fun t =>
        t.dev.fw = { s.dev.fw with calWait := s.dev.fw.calWait ++ [(p, c.2)] } ∧ t.dev.regP p Reg.FW_CAL_STATUS = 8 ∧
        t.dev.mem = s.dev.mem)) ∧
    (∀ c ∈ ((List.finRange 6).map (fun k => (Instr.fwWatchdog k true, 1 + 4 * k.val))) ++ [(.qmCheck true, 2)],
      s.dev.fwRunning = true → s.dev.fw.staged = none → s.dev.fwAct = 0 →
      Completes c.1 s (fun t => t.dev.reg Reg.FW_RESTARTS = s.dev.reg Reg.FW_RESTARTS + 1 ∧
        t.dev.reg Reg.FW_LAST_RESTART = BitVec.ofNat 32 c.2 ∧ t.dev.fld Reg.FW_EVENT Fld.FW_EVENT_RESTARTED = 1 ∧
        t.dev.fld Reg.STC_ALIVE Fld.STC_ALIVE_EN = 0 ∧ t.dev.mem = s.dev.mem ∧
        t.dev.fwState = if 2 ≤ (s.dev.fw.restarts.filter (fun x => decide (s.dev.ticks < x + 6000000000))).length then 5 else 4))

/-- R342, R416 to R418: an activation hands over once EMERGENCY and level 2 have been clear for 1 s, switches when every gang is
held and is aborted when one is not; staging, activating, cancelling and loading a pattern pack need SEM0 and the right state,
and give their codes. Model's own readings in it: log entries 128 and 133. -/
def Obligations.LiveUpdate : Prop :=
  ∀ s : State, Live s →
    (s.dev.fwAct = 2 → s.dev.calmLong = true → Completes .handoverBegin s (fun t => FieldIs s t Reg.FW_STATUS Fld.FW_STATUS_ACT 3)) ∧
    (s.dev.fwAct = 3 →
      (∀ (i : Image) (vpp : Bool), s.dev.fw.staged = some i → s.dev.allHeld = true → Completes (.handoverSwitch vpp) s (fun t =>
        t.dev.fwAct = 0 ∧ t.dev.fw.staged = none ∧ t.dev.fw.image = i ∧ t.dev.reg Reg.FW_VERSION = i.version ∧
        t.dev.reg Reg.FW_ACT_RESULT = 1 ∧ t.dev.fld Reg.FW_EVENT Fld.FW_EVENT_ACTIVATED = 1 ∧
        t.dev.cores = s.dev.cores ∧ t.dev.mem = s.dev.mem ∧ t.dev.queues = s.dev.queues)) ∧
      (s.dev.allHeld = false → Completes .actAborted s (fun t => t.dev.fwAct = 1 ∧ t.dev.fw = s.dev.fw ∧
        t.dev.reg Reg.FW_ACT_RESULT = 8 ∧ t.dev.fld Reg.FW_EVENT Fld.FW_EVENT_ACT_ABORTED = 1 ∧
        (∀ e ∈ t.dev.jobs, e.2.layerHeld = false) ∧ t.dev.mem = s.dev.mem ∧ t.dev.cores = s.dev.cores))) ∧
    (∀ (p : Port) (e : Entry),
      (∀ ph flashOk op i, (op, i) ∈ [(0x32, Instr.fwStage p ph), (0x33, .fwActivate p), (0x34, .fwCancel p), (0x37, .loadPatternPack p ph),
          (0x35, .restoreFactory p), (0x30, .prepareOff p flashOk)] →
        AdminReady s p op e → s.dev.holdsSem0 p = false → Completes i s (fun t => AdminFailed s t p e 0x107 5)) ∧
      (s.dev.holdsSem0 p = true →
        (AdminReady s p 0x32 e →
          let a := addrAt e.raw 0x10
          let len := wordAt e.raw 0x18
          let l := s.dev.fwBytes a 4096
          let form := if len < 4097 then 2 else s.dev.imageCode 1 len l (s.dev.fwBytes (a + 4096) (len - 4096))
          let code := if form = 1 ∧ (imgHeader l).abi ≠ s.dev.fw.image.abi then 7 else form
          Completes (.fwStage p {}) s (fun t =>
            if 2 ≤ s.dev.fwAct then AdminFailed s t p e 0x107 4
            else if s.dev.imageAt a len 4096 = false then AdminFailed s t p e 0x107 1
            else if code = 1 then ∃ d : Dev, AdminDone s t p e 0 d ∧ d.fw = { s.dev.fw with staged := some (imgOf l) } ∧
              d.fwAct = 1 ∧ d.reg Reg.FW_ACT_RESULT = 1 ∧ d.mem = s.dev.mem
            else ∃ d : Dev, t = after s (d.adminEnd p.idx e.count { status := 0x107, aux := 1 }) ∧ d.fw = s.dev.fw ∧
              d.fwAct = s.dev.fwAct ∧ d.reg Reg.FW_ACT_RESULT = BitVec.ofNat 32 code ∧ d.mem = s.dev.mem)) ∧
        (AdminReady s p 0x33 e →
          (s.dev.fwAct = 1 → Completes (.fwActivate p) s (fun t =>
            if s.dev.calmLong = true then AdminDone s t p e 0 (s.dev.setAct 3) else AdminDone s t p e 1 (s.dev.setAct 2))) ∧
          (s.dev.fwAct ≠ 1 → Completes (.fwActivate p) s (fun t => AdminFailed s t p e 0x107 4))) ∧
        (AdminReady s p 0x34 e → s.dev.fwAct ≠ 3 → Completes (.fwCancel p) s (fun t => ∃ d : Dev, AdminDone s t p e 0 d ∧
          d.fw = { s.dev.fw with staged := none } ∧ d.fwAct = 0 ∧ d.mem = s.dev.mem)) ∧
        (AdminReady s p 0x37 e →
          let a := addrAt e.raw 0x10
          let len := wordAt e.raw 0x18
          let l := s.dev.fwBytes a 4096
          Completes (.loadPatternPack p {}) s (fun t =>
            if a % 256 = 0 ∧ 4097 ≤ len ∧ s.dev.firstBad a len = none ∧
                s.dev.imageCode 2 len l (s.dev.fwBytes (a + 4096) (len - 4096)) = 1 then
              ∃ d : Dev, AdminDone s t p e 0 d ∧
                d.fw = { s.dev.fw with packVersion := some (imgHeader l).version, packDigest := imgDigest l } ∧
                d.packVersion = (imgHeader l).version ∧ d.packDigest = imgDigest l ∧ d.mem = s.dev.mem
            else AdminFailed s t p e 0x107 1))))

/-- R419 to R423, R425: ATTEST writes its report, STORE, READ and RESTORE_FACTORY handle the calibration layer; a challenge that is
answered with the right key enables debug, zeroises the identity key and makes a session key.
Model's own readings in it: log entries 128, 130, 135, 136, 137 and 138. -/
def Obligations.TrustAndDebugAccess : Prop :=
  (∀ (s : State) (p : Port) (e : Entry), Live s →
     (AdminReady s p 0x36 e →
       (s.dev.fw.key ≠ none → addrAt e.raw 0x30 % 4096 = 0 → s.dev.firstBad (addrAt e.raw 0x30) 4096 = none → s.dev.poison = [] →
         ∀ rnd, Completes (.attest p [] [] rnd) s (fun t => ∃ d : Dev, AdminDone s t p e 0 d ∧ d.cores = s.dev.cores ∧
           ∀ i, d.byte (addrAt e.raw 0x30 + i) = if i < 4096 then
             (s.dev.attestReport ((e.raw.drop 0x10).take 32) rnd).getD i 0 else s.dev.byte (addrAt e.raw 0x30 + i))) ∧
       (s.dev.fw.key = none → ∀ bad corr rnd, Completes (.attest p bad corr rnd) s (fun t => AdminFailed s t p e 0x107 4))) ∧
     (AdminReady s p 0x35 e → s.dev.holdsSem0 p = true → Completes (.restoreFactory p) s (fun t => ∃ d : Dev,
       AdminDone s t p e 0 d ∧ d.fw = { s.dev.fw with calPending := some none } ∧ d.keep.cal0 = .absent ∧ d.keep.cal1 = .absent ∧
       d.keep.recs = s.dev.keep.recs ∧ d.mem = s.dev.mem)) ∧
     (s.dev.fwRunning = true → s.dev.awake = true →
       (∀ (ok : Bool),
         let a := s.dev.calAddr p
         let l := s.dev.fwBytes a 256
         let k := wordAt l 0x54
         let tables := s.dev.fwBytes (a + 256) k
         (s.dev.holdsSem0 p = false → Completes (.store p [] [] ok) s (fun t => OnlyRegs s t ∧
           t.dev.regP p Reg.FW_CAL_STATUS = 6)) ∧
         (s.dev.holdsSem0 p = true → a % 64 = 0 → s.dev.firstBad a 256 = none → s.dev.firstBad a (256 + k) = none →
           layerMalformed l = false →
           let tooFar := (List.range 9).any (fun i => decide ((Config.margin i : Int) < ((layerTrims l).getD i 0).natAbs))
           Completes (.store p [] [] ok) s (fun t => t.dev.mem = s.dev.mem ∧
             t.dev.regP p Reg.FW_CAL_STATUS = (if bv256 ((l.drop 0x20).take 32) ≠ layerSum (l ++ tables) then 3
               else if tooFar then 4 else if ok && s.dev.hasFlash then 1 else 5) ∧
             (bv256 ((l.drop 0x20).take 32) = layerSum (l ++ tables) → tooFar = false → ok = true → s.dev.hasFlash = true →
               let x := ({ seq := (s.dev.fw.layer.map (fun y => y.seq)).getD 0 + 1, trims := layerTrims l, k := fldAt l 0x50 0 16,
                           tables := tables, digest := 0 } : CalLayer).sealed
               t.dev.fw = { s.dev.fw with calPending := some (some x) } ∧
               (t.dev.keep.cal0 = .layer x ∨ t.dev.keep.cal1 = .layer x))))) ∧
       (s.dev.fw.layer = none → Completes (.read p) s (fun t => OnlyRegs s t ∧ t.dev.regP p Reg.FW_CAL_STATUS = 7)) ∧
       (∀ l : CalLayer, s.dev.fw.layer = some l → s.dev.calAddr p % 64 = 0 →
         s.dev.firstBad (s.dev.calAddr p) l.bytes.length = none → s.dev.poison = [] →
         Completes (.read p) s (fun t => t.dev.regP p Reg.FW_CAL_STATUS = 1 ∧
           (∀ i b, l.bytes[i]? = some b → t.dev.byte (s.dev.calAddr p + i) = b) ∧
           SameOutside s t (s.dev.calAddr p) l.bytes.length)))) ∧
  (∀ (s : State) (src : Option Port), Live s →
     (s.dev.mayDebug src = true →
       Completes (.challenge src) s (fun t => t.dev.fw = { s.dev.fw with chalLive := true } ∧ t.dev.reg Reg.SEC_DBG_STATUS = 1 ∧
         RegsOutside s t (Reg.SEC_DBG_STATUS :: (List.range 8).map Reg.SEC_DBG_CHALi)) ∧
       (∀ (slot : Fin 4) (seed : BitVec 256),
         let r := s.dev.debugResponse
         let keyOk := debugKeyOk slot (sha3 r.1)
         let sigOk := Config.mldsaVerify r.1 s.dev.debugMessage r.2
         (s.dev.fw.chalLive = true → Completes (.verify src slot {} seed) s (fun t =>
           t.dev.fw = { s.dev.fw with chalLive := false, key := if keyOk && sigOk then some seed else s.dev.fw.key } ∧
           t.dev.reg Reg.SEC_DBG_STATUS = (if keyOk = false then 3 else if sigOk = false then 4 else 2) ∧
           ((keyOk && sigOk) = true → t.dev.fld Reg.SEC_STATUS Fld.SEC_STATUS_DEBUG_ENABLED = 1 ∧
             t.dev.fld Reg.SEC_STATUS Fld.SEC_STATUS_ZEROISED = 1) ∧
           ((keyOk && sigOk) = false → t.dev.reg Reg.SEC_STATUS = s.dev.reg Reg.SEC_STATUS) ∧
           RegsOutside s t [Reg.SEC_DBG_STATUS, Reg.SEC_STATUS])) ∧
         (s.dev.fw.chalLive = false → ∀ ph, Completes (.verify src slot ph seed) s (fun t =>
           OnlyRegs s t ∧ RegIs s t Reg.SEC_DBG_STATUS 5)))) ∧
     (s.dev.mayDebug src = false → ∀ slot ph seed, ∀ c ∈ [Instr.challenge src, .verify src slot ph seed],
       Completes c s (fun t => t = after s s.dev)) ∧
     (s.dev.fw.chalLive = true → Completes .challengeExpired s (fun t => t.dev.fw = { s.dev.fw with chalLive := false } ∧
       RegIs s t Reg.SEC_DBG_STATUS 5)) ∧
     (∀ p : Port, Completes (.rngRead p) s (fun t => ∃ v : Word, t = after s { s.dev with out := .regData p v :: s.dev.out })))

/-- R432 to R435: PREPARE_OFF stops every engine at its first execution and completes when nothing is left; the rest-stop test
then loses memory and the identity key and ends in step 6 or 7; firmware writes the health record after a fence change and each day.
Model's own readings in it: log entries 6, 73, 136, 139, 146 and 169 (a lost byte is a free value: entry 6). -/
def Obligations.StopAndRecords : Prop :=
  ∀ s : State, Live s →
    (∀ (p : Port) (e : Entry) (flashOk : Bool), AdminReady s p 0x30 e → s.dev.holdsSem0 p = true →
      Completes (.prepareOff p flashOk) s (fun t => t.dev.fw.stopping = true ∧ t.dev.fw.staged = none ∧
        (s.dev.fw.stopping = false → t.dev.med.str = [] ∧ t.dev.med.dctx = [] ∧ t.dev.med.ectx = [] ∧ t.dev.med.bstr = []) ∧
        (s.dev.fw.stopping = true → s.dev.jobs = [] → s.dev.liveQueues = [] → t.dev.fw.stopped = true ∧
          (flashOk = false → t.dev.keep.cal0 = s.dev.keep.cal0 ∧ t.dev.keep.cal1 = s.dev.keep.cal1) ∧
          t.dev.fld Reg.STC_STOP_STATUS Fld.STC_STOP_STATUS_STOP_STEP = 1))) ∧
    (∀ (bad : List (Fin 48)) (hamper repeated : Bool) (void : List (Fin 4)) (ok : Bool), s.dev.fw.stopped = true →
      s.dev.fld Reg.STC_STOP_STATUS Fld.STC_STOP_STATUS_STOP_STEP = 1 →
      Completes (.restStopTest bad hamper repeated void ok) s (fun t =>
        t.dev.fld Reg.STC_STOP_STATUS Fld.STC_STOP_STATUS_STOP_STEP = (if ok && s.dev.hasFlash then 6 else 7) ∧
        t.dev.fld Reg.STC_STOP_STATUS Fld.STC_STOP_STATUS_REPEATED = b2n (repeated || !void.isEmpty) ∧
        t.dev.fld Reg.SEC_STATUS Fld.SEC_STATUS_ZEROISED = 1 ∧ t.dev.fw.key = none ∧ t.dev.fld Reg.STC_ALIVE Fld.STC_ALIVE_EN = 0 ∧
        (∀ u ∈ bad, (t.dev.unit u.val).st = .fenced) ∧
        (∀ a, t.dev.byte a = if isCoreMem a = true ∨ isHamper a = true then Config.lostByte s.dev.ctr a else s.dev.byte a))) ∧
    (s.dev.fwRunning = true → s.dev.fw.stopped = false → s.dev.hasFlash = true →
      let written := fun (t : State) => ∃ i r, t.dev.fw.rec_ = some (i, r) ∧ Tbl.find? t.dev.keep.recs i = some r ∧
        r.units = (List.range 48).map (fun u => (healthCode (s.dev.unit u).st, (s.dev.unit u).remain)) ∧ r.defect = 0 ∧
        r.age = s.dev.fw.ageBase + s.dev.ticks / 100000000
      Completes .healthAgeUpdate s (fun t => written t ∧ t.dev.regs = s.dev.regs ∧ t.dev.mem = s.dev.mem) ∧
      (s.dev.fld Reg.STC_HEALTH_SUM Fld.STC_HEALTH_SUM_RECORD_DIRTY = 1 → Completes .healthRecordWrite s (fun t => written t ∧
        t.dev.fld Reg.STC_HEALTH_SUM Fld.STC_HEALTH_SUM_RECORD_DIRTY = 0 ∧ RegsOutside s t [Reg.STC_HEALTH_SUM])))

/-- R427, R429 to R431, R437, R440, R470: a reset leaves every register at its reset value and keeps the flash and the fuses;
the boot runs once; after a loss of REFCLK every other command stops with the fault refclkLost (the model's choice, log entry
3). Model's own readings in it: log entries 5, 139, 140 and 145 (a byte that nothing has written reads 0: entry 5). -/
def Obligations.ResetsAndBoot : Prop :=
  (∀ s : State,
     let done := fun (t : State) (cause : Word) => (∀ o, t.dev.word o = resetReg (o % regSpace)) ∧ (∀ a, t.dev.byte a = 0) ∧
       t.dev.time = 0 ∧ t.dev.jobs = [] ∧ t.dev.queues = [] ∧ t.dev.units = [] ∧ t.dev.refLost = false ∧ t.dev.tripped = false ∧
       t.snapA = {} ∧ t.snapB = {} ∧ t.pending = s.pending ∧ t.dev.keep.cause = cause ∧ t.dev.keep.recs = s.dev.keep.recs ∧
       t.dev.keep.cal0 = s.dev.keep.cal0 ∧ t.dev.keep.cal1 = s.dev.keep.cal1 ∧ t.dev.keep.fuses = s.dev.keep.fuses
     (∀ aon : Bool, Completes (.coldReset aon) s (fun t => done t (if s.dev.tripped then 33 else 1) ∧
       t.dev.keep.supplyLog = if aon then s.dev.keep.supplyLog else 0)) ∧
     (Live s →
       Completes .warmReset s (fun t => done t 2 ∧ t.dev.keep.supplyLog = s.dev.keep.supplyLog) ∧
       (∀ p : Port,
         (s.dev.holdsSem0 p = true → Completes (.hostReset p 0xA55A) s (fun t => done t (if p = .a then 4 else 8))) ∧
         (s.dev.holdsSem0 p = false → Completes (.hostReset p 0xA55A) s (fun t =>
           FieldIs s t (Reg.HPx_STATUS p.idx) Fld.HPx_STATUS_WR_REJECT 1)) ∧
         (∀ v, v ≠ 0xA55A#32 → Completes (.hostReset p v) s (fun t => t = after s s.dev))) ∧
       (∀ rail : Fin 4, Completes (.supplyReset rail) s (fun t => done t 16 ∧
         t.dev.keep.supplyLog = BitVec.ofNat 32 (4 + rail.val) ∧ t.dev.keep.supplyTime = s.dev.time))) ∧
     Completes .refclkLoss s (fun t => t = { s with dev := { s.dev with refLost := true } })) ∧
  (∀ (s : State) (b : BootIn), Live s →
     (s.dev.fw.booted = true → Completes (.boot b) s (fun t => t = after s s.dev)) ∧
     (s.dev.fw.booted = false →
       let code := s.dev.keep.recCode b.flash
       let stopped := b.badChannel.isSome || (decide (code ≠ 0) && b.hamper)
       code < 16 →
       Completes (.boot b) s (fun t => t.dev.fw.booted = true ∧ t.dev.mem = s.dev.mem ∧
         t.dev.fld Reg.STC_START_STATUS Fld.STC_START_STATUS_REC_CODE = code ∧
         t.dev.fld Reg.STC_START_STATUS Fld.STC_START_STATUS_PATH = (if code = 0 then 1 else 2) ∧
         t.dev.fld Reg.STC_START_STATUS Fld.STC_START_STATUS_PHASE = (if stopped then 3 else 2) ∧
         (code ≠ 0 → (∀ u ∈ b.badUnits, (t.dev.unit u.val).st = .fenced)) ∧
         (∀ i r, code = 0 → s.dev.keep.bestRec HRec.valid = some (i, r) → ∀ u c, u < 48 → r.units[u]? = some c →
           (t.dev.unit u).st = healthOf c.1) ∧
         (stopped = false → t.dev.fld Reg.SEC_STATUS Fld.SEC_STATUS_ID_READY = 1 ∧ t.dev.fw.key = some (sha3 Config.otpSeed))))) ∧
  (∀ (c : Instr) (s : State), s.dev.refLost = true → (∀ b, c ≠ .coldReset b) → c ≠ .refclkLoss →
     exec c s = .fault .refclkLost)

/-- R16, R427: memory keeps its canonical form: rising addresses, and no byte listed that an unlisted address reads as. -/
def Obligations.MemoryStaysCanonical : Prop :=
  ∀ s t : State, s.dev.memWf = true → step s = .next t → t.dev.memWf = true

/-- R8, R16: memory has its canonical form at reset and equal contents are equal tables; every register holds its reset value.
Model's own readings in it: log entries 5, 141 and 144 (a byte that nothing has written reads 0: entry 5; every unit starts
HEALTHY: entry 141). -/
def Obligations.ResetState : Prop :=
  (State.reset.dev.memWf = true ∧ (∀ a, State.reset.dev.byte a = 0) ∧
   ∀ (blank : Nat → Byte) (m n : Tbl Byte), Memory.wf blank m = true → Memory.wf blank n = true →
     (∀ a, Tbl.getD m a (blank a) = Tbl.getD n a (blank a)) → m = n) ∧
  ((∀ o, State.reset.dev.reg o = resetReg (o % regSpace)) ∧ State.reset.pending = [] ∧
   State.reset.dev.fld Reg.PM_CAP Fld.PM_CAP_CAP = 760 ∧ State.reset.dev.time = 0 ∧ State.reset.dev.jobs = [] ∧
   State.reset.dev.fwState = 0 ∧ State.reset.dev.cores = [] ∧ (∀ q, (State.reset.dev.queue q).state = .free) ∧
   (∀ f, State.reset.dev.flag f = false) ∧ (∀ n, (State.reset.dev.sem n).holder = none) ∧
   (∀ u, (State.reset.dev.unit u).st = .healthy))
end

