-- ==== Sys2Proof/Laws/Tbl.lean ====
section
/-! SUPPORT. The laws of tables: reading after writing, and the canonical order of keys. -/

namespace Sys2Proof.Machine

theorem Tbl.find?_set {α : Type} (t : Tbl α) (i j : Nat) (x : α) :
    Tbl.find? (Tbl.set t i x) j = if i = j then some x else Tbl.find? t j := by
  induction t with
  | nil => simp [Tbl.set, Tbl.find?]
  | cons e t ih =>
    obtain ⟨k, v⟩ := e
    simp only [Tbl.set]
    split
    · simp [Tbl.find?]
    · split
      · subst_vars; simp only [Tbl.find?]; split <;> simp_all
      · simp only [Tbl.find?, ih]
        split
        · have : i ≠ j := by omega
          simp [this]
        · rfl

@[simp] theorem Tbl.find?_set_self {α : Type} (t : Tbl α) (i : Nat) (x : α) :
    Tbl.find? (Tbl.set t i x) i = some x := by simp [Tbl.find?_set]

theorem Tbl.getD_set {α : Type} (t : Tbl α) (i j : Nat) (x d : α) :
    Tbl.getD (Tbl.set t i x) j d = if i = j then x else Tbl.getD t j d := by
  simp only [Tbl.getD, Tbl.find?_set]
  split <;> simp

@[simp] theorem Tbl.getD_set_self {α : Type} (t : Tbl α) (i : Nat) (x d : α) :
    Tbl.getD (Tbl.set t i x) i d = x := by simp [Tbl.getD_set]

theorem Tbl.find?_erase {α : Type} (t : Tbl α) (i j : Nat) :
    Tbl.find? (Tbl.erase t i) j = if i = j then none else Tbl.find? t j := by
  induction t with
  | nil => simp [Tbl.erase, Tbl.find?]
  | cons e t ih =>
    obtain ⟨k, v⟩ := e
    simp only [Tbl.erase, Tbl.find?]
    split
    · rw [ih]; split
      · rfl
      · have : k ≠ j := by omega
        simp [this]
    · simp only [Tbl.find?, ih]
      split
      · have : i ≠ j := by omega
        simp [this]
      · rfl

theorem Tbl.getD_put {α : Type} [DecidableEq α] (t : Tbl α) (i j : Nat) (x d : α) :
    Tbl.getD (Tbl.put d t i x) j d = if i = j then x else Tbl.getD t j d := by
  unfold Tbl.put
  split
  · simp only [Tbl.getD, Tbl.find?_erase]
    split <;> simp_all
  · exact Tbl.getD_set t i j x d

/-- The keys of a table rise. -/
def Tbl.Rising {α : Type} (t : Tbl α) : Prop := List.Pairwise (fun x y => x.1 < y.1) t

theorem Tbl.keys_set {α : Type} (t : Tbl α) (i : Nat) (x : α) (e : Nat × α) (h : e ∈ Tbl.set t i x) :
    e = (i, x) ∨ e ∈ t := by
  induction t with
  | nil => simp_all [Tbl.set]
  | cons f t ih =>
    obtain ⟨k, v⟩ := f
    simp only [Tbl.set] at h
    split at h
    · simp_all
    · split at h
      · rcases List.mem_cons.1 h with h | h
        · exact .inl h
        · exact .inr (List.mem_cons_of_mem _ h)
      · simp only [List.mem_cons] at h ⊢
        rcases h with h | h
        · exact .inr (.inl h)
        · rcases ih h with h | h <;> simp [h]

theorem Tbl.mem_erase {α : Type} (t : Tbl α) (i : Nat) (e : Nat × α) (h : e ∈ Tbl.erase t i) : e ∈ t := by
  induction t with
  | nil => simp_all [Tbl.erase]
  | cons f t ih =>
    obtain ⟨k, v⟩ := f
    simp only [Tbl.erase] at h
    split at h
    · exact List.mem_cons_of_mem _ (ih h)
    · simp only [List.mem_cons] at h ⊢
      exact h.imp id ih

theorem Tbl.rising_set {α : Type} (t : Tbl α) (i : Nat) (x : α) (h : t.Rising) : (Tbl.set t i x).Rising := by
  induction t with
  | nil => simp [Tbl.set, Tbl.Rising]
  | cons f t ih =>
    obtain ⟨k, v⟩ := f
    have hk := List.pairwise_cons.1 h
    simp only [Tbl.set]
    split
    · refine List.pairwise_cons.2 ⟨?_, h⟩
      intro e he
      rcases List.mem_cons.1 he with rfl | he
      · assumption
      · have := hk.1 e he
        simp_all; omega
    · split
      · subst_vars; exact List.pairwise_cons.2 ⟨fun e he => hk.1 e he, hk.2⟩
      · refine List.pairwise_cons.2 ⟨?_, ih hk.2⟩
        intro e he
        rcases Tbl.keys_set t i x e he with rfl | he
        · simp; omega
        · exact hk.1 e he

theorem Tbl.rising_erase {α : Type} (t : Tbl α) (i : Nat) (h : t.Rising) : (Tbl.erase t i).Rising := by
  induction t with
  | nil => simp [Tbl.erase, Tbl.Rising]
  | cons f t ih =>
    obtain ⟨k, v⟩ := f
    have hk := List.pairwise_cons.1 h
    simp only [Tbl.erase]
    split
    · exact ih hk.2
    · exact List.pairwise_cons.2 ⟨fun e he => hk.1 e (Tbl.mem_erase t i e he), ih hk.2⟩

end Sys2Proof.Machine
end

