-- ==== Sys2Proof/Laws/State.lean ====
section
/-! SUPPORT. Each update of the device leaves every field but its own as it was: one lemma per field and update. -/

namespace Sys2Proof.Machine

variable (d : Dev)

@[simp] theorem Dev.setReg_ctr (o : Nat) (v : Word) : (d.setReg o v).ctr = d.ctr := rfl
@[simp] theorem Dev.setReg_epoch (o : Nat) (v : Word) : (d.setReg o v).epoch = d.epoch := rfl
@[simp] theorem Dev.setReg_mem (o : Nat) (v : Word) : (d.setReg o v).mem = d.mem := rfl
@[simp] theorem Dev.setReg_poison (o : Nat) (v : Word) : (d.setReg o v).poison = d.poison := rfl
@[simp] theorem Dev.setReg_stale (o : Nat) (v : Word) : (d.setReg o v).stale = d.stale := rfl
@[simp] theorem Dev.setReg_cap48 (o : Nat) (v : Word) : (d.setReg o v).cap48 = d.cap48 := rfl
@[simp] theorem Dev.setReg_lost (o : Nat) (v : Word) : (d.setReg o v).lost = d.lost := rfl
@[simp] theorem Dev.setReg_cores (o : Nat) (v : Word) : (d.setReg o v).cores = d.cores := rfl
@[simp] theorem Dev.setReg_jobs (o : Nat) (v : Word) : (d.setReg o v).jobs = d.jobs := rfl
@[simp] theorem Dev.setReg_ctxLevel (o : Nat) (v : Word) : (d.setReg o v).ctxLevel = d.ctxLevel := rfl
@[simp] theorem Dev.setReg_ctxLast (o : Nat) (v : Word) : (d.setReg o v).ctxLast = d.ctxLast := rfl
@[simp] theorem Dev.setReg_ctxRate (o : Nat) (v : Word) : (d.setReg o v).ctxRate = d.ctxRate := rfl
@[simp] theorem Dev.setReg_ctxBurst (o : Nat) (v : Word) : (d.setReg o v).ctxBurst = d.ctxBurst := rfl
@[simp] theorem Dev.setReg_bwrPend (o : Nat) (v : Word) : (d.setReg o v).bwrPend = d.bwrPend := rfl
@[simp] theorem Dev.setReg_cyc16 (o : Nat) (v : Word) : (d.setReg o v).cyc16 = d.cyc16 := rfl
@[simp] theorem Dev.setReg_ticks (o : Nat) (v : Word) : (d.setReg o v).ticks = d.ticks := rfl
@[simp] theorem Dev.setReg_time (o : Nat) (v : Word) : (d.setReg o v).time = d.time := rfl
@[simp] theorem Dev.setReg_flags (o : Nat) (v : Word) : (d.setReg o v).flags = d.flags := rfl
@[simp] theorem Dev.setReg_queues (o : Nat) (v : Word) : (d.setReg o v).queues = d.queues := rfl
@[simp] theorem Dev.setReg_ctxs (o : Nat) (v : Word) : (d.setReg o v).ctxs = d.ctxs := rfl
@[simp] theorem Dev.setReg_owners (o : Nat) (v : Word) : (d.setReg o v).owners = d.owners := rfl
@[simp] theorem Dev.setReg_sems (o : Nat) (v : Word) : (d.setReg o v).sems = d.sems := rfl
@[simp] theorem Dev.setReg_ports (o : Nat) (v : Word) : (d.setReg o v).ports = d.ports := rfl
@[simp] theorem Dev.setReg_commit (o : Nat) (v : Word) : (d.setReg o v).commit = d.commit := rfl
@[simp] theorem Dev.setReg_bells (o : Nat) (v : Word) : (d.setReg o v).bells = d.bells := rfl
@[simp] theorem Dev.setReg_units (o : Nat) (v : Word) : (d.setReg o v).units = d.units := rfl
@[simp] theorem Dev.setReg_flog (o : Nat) (v : Word) : (d.setReg o v).flog = d.flog := rfl
@[simp] theorem Dev.setReg_pm (o : Nat) (v : Word) : (d.setReg o v).pm = d.pm := rfl
@[simp] theorem Dev.setReg_fw (o : Nat) (v : Word) : (d.setReg o v).fw = d.fw := rfl
@[simp] theorem Dev.setReg_keep (o : Nat) (v : Word) : (d.setReg o v).keep = d.keep := rfl
@[simp] theorem Dev.setReg_cps (o : Nat) (v : Word) : (d.setReg o v).cps = d.cps := rfl
@[simp] theorem Dev.setReg_fab (o : Nat) (v : Word) : (d.setReg o v).fab = d.fab := rfl
@[simp] theorem Dev.setReg_med (o : Nat) (v : Word) : (d.setReg o v).med = d.med := rfl
@[simp] theorem Dev.setReg_refLost (o : Nat) (v : Word) : (d.setReg o v).refLost = d.refLost := rfl
@[simp] theorem Dev.setReg_tripped (o : Nat) (v : Word) : (d.setReg o v).tripped = d.tripped := rfl
@[simp] theorem Dev.setReg_out (o : Nat) (v : Word) : (d.setReg o v).out = d.out := rfl

@[simp] theorem Dev.setRegP_ctr (p : Port) (o : Nat) (v : Word) : (d.setRegP p o v).ctr = d.ctr := rfl
@[simp] theorem Dev.setRegP_epoch (p : Port) (o : Nat) (v : Word) : (d.setRegP p o v).epoch = d.epoch := rfl
@[simp] theorem Dev.setRegP_mem (p : Port) (o : Nat) (v : Word) : (d.setRegP p o v).mem = d.mem := rfl
@[simp] theorem Dev.setRegP_poison (p : Port) (o : Nat) (v : Word) : (d.setRegP p o v).poison = d.poison := rfl
@[simp] theorem Dev.setRegP_stale (p : Port) (o : Nat) (v : Word) : (d.setRegP p o v).stale = d.stale := rfl
@[simp] theorem Dev.setRegP_cap48 (p : Port) (o : Nat) (v : Word) : (d.setRegP p o v).cap48 = d.cap48 := rfl
@[simp] theorem Dev.setRegP_lost (p : Port) (o : Nat) (v : Word) : (d.setRegP p o v).lost = d.lost := rfl
@[simp] theorem Dev.setRegP_cores (p : Port) (o : Nat) (v : Word) : (d.setRegP p o v).cores = d.cores := rfl
@[simp] theorem Dev.setRegP_jobs (p : Port) (o : Nat) (v : Word) : (d.setRegP p o v).jobs = d.jobs := rfl
@[simp] theorem Dev.setRegP_ctxLevel (p : Port) (o : Nat) (v : Word) : (d.setRegP p o v).ctxLevel = d.ctxLevel := rfl
@[simp] theorem Dev.setRegP_ctxLast (p : Port) (o : Nat) (v : Word) : (d.setRegP p o v).ctxLast = d.ctxLast := rfl
@[simp] theorem Dev.setRegP_ctxRate (p : Port) (o : Nat) (v : Word) : (d.setRegP p o v).ctxRate = d.ctxRate := rfl
@[simp] theorem Dev.setRegP_ctxBurst (p : Port) (o : Nat) (v : Word) : (d.setRegP p o v).ctxBurst = d.ctxBurst := rfl
@[simp] theorem Dev.setRegP_bwrPend (p : Port) (o : Nat) (v : Word) : (d.setRegP p o v).bwrPend = d.bwrPend := rfl
@[simp] theorem Dev.setRegP_cyc16 (p : Port) (o : Nat) (v : Word) : (d.setRegP p o v).cyc16 = d.cyc16 := rfl
@[simp] theorem Dev.setRegP_ticks (p : Port) (o : Nat) (v : Word) : (d.setRegP p o v).ticks = d.ticks := rfl
@[simp] theorem Dev.setRegP_time (p : Port) (o : Nat) (v : Word) : (d.setRegP p o v).time = d.time := rfl
@[simp] theorem Dev.setRegP_flags (p : Port) (o : Nat) (v : Word) : (d.setRegP p o v).flags = d.flags := rfl
@[simp] theorem Dev.setRegP_queues (p : Port) (o : Nat) (v : Word) : (d.setRegP p o v).queues = d.queues := rfl
@[simp] theorem Dev.setRegP_ctxs (p : Port) (o : Nat) (v : Word) : (d.setRegP p o v).ctxs = d.ctxs := rfl
@[simp] theorem Dev.setRegP_owners (p : Port) (o : Nat) (v : Word) : (d.setRegP p o v).owners = d.owners := rfl
@[simp] theorem Dev.setRegP_sems (p : Port) (o : Nat) (v : Word) : (d.setRegP p o v).sems = d.sems := rfl
@[simp] theorem Dev.setRegP_ports (p : Port) (o : Nat) (v : Word) : (d.setRegP p o v).ports = d.ports := rfl
@[simp] theorem Dev.setRegP_commit (p : Port) (o : Nat) (v : Word) : (d.setRegP p o v).commit = d.commit := rfl
@[simp] theorem Dev.setRegP_bells (p : Port) (o : Nat) (v : Word) : (d.setRegP p o v).bells = d.bells := rfl
@[simp] theorem Dev.setRegP_units (p : Port) (o : Nat) (v : Word) : (d.setRegP p o v).units = d.units := rfl
@[simp] theorem Dev.setRegP_flog (p : Port) (o : Nat) (v : Word) : (d.setRegP p o v).flog = d.flog := rfl
@[simp] theorem Dev.setRegP_pm (p : Port) (o : Nat) (v : Word) : (d.setRegP p o v).pm = d.pm := rfl
@[simp] theorem Dev.setRegP_fw (p : Port) (o : Nat) (v : Word) : (d.setRegP p o v).fw = d.fw := rfl
@[simp] theorem Dev.setRegP_keep (p : Port) (o : Nat) (v : Word) : (d.setRegP p o v).keep = d.keep := rfl
@[simp] theorem Dev.setRegP_cps (p : Port) (o : Nat) (v : Word) : (d.setRegP p o v).cps = d.cps := rfl
@[simp] theorem Dev.setRegP_fab (p : Port) (o : Nat) (v : Word) : (d.setRegP p o v).fab = d.fab := rfl
@[simp] theorem Dev.setRegP_med (p : Port) (o : Nat) (v : Word) : (d.setRegP p o v).med = d.med := rfl
@[simp] theorem Dev.setRegP_refLost (p : Port) (o : Nat) (v : Word) : (d.setRegP p o v).refLost = d.refLost := rfl
@[simp] theorem Dev.setRegP_tripped (p : Port) (o : Nat) (v : Word) : (d.setRegP p o v).tripped = d.tripped := rfl
@[simp] theorem Dev.setRegP_out (p : Port) (o : Nat) (v : Word) : (d.setRegP p o v).out = d.out := rfl

@[simp] theorem Dev.setFld_ctr (o : Nat) (f : Fld) (v : Nat) : (d.setFld o f v).ctr = d.ctr := rfl
@[simp] theorem Dev.setFld_epoch (o : Nat) (f : Fld) (v : Nat) : (d.setFld o f v).epoch = d.epoch := rfl
@[simp] theorem Dev.setFld_mem (o : Nat) (f : Fld) (v : Nat) : (d.setFld o f v).mem = d.mem := rfl
@[simp] theorem Dev.setFld_poison (o : Nat) (f : Fld) (v : Nat) : (d.setFld o f v).poison = d.poison := rfl
@[simp] theorem Dev.setFld_stale (o : Nat) (f : Fld) (v : Nat) : (d.setFld o f v).stale = d.stale := rfl
@[simp] theorem Dev.setFld_cap48 (o : Nat) (f : Fld) (v : Nat) : (d.setFld o f v).cap48 = d.cap48 := rfl
@[simp] theorem Dev.setFld_lost (o : Nat) (f : Fld) (v : Nat) : (d.setFld o f v).lost = d.lost := rfl
@[simp] theorem Dev.setFld_cores (o : Nat) (f : Fld) (v : Nat) : (d.setFld o f v).cores = d.cores := rfl
@[simp] theorem Dev.setFld_jobs (o : Nat) (f : Fld) (v : Nat) : (d.setFld o f v).jobs = d.jobs := rfl
@[simp] theorem Dev.setFld_ctxLevel (o : Nat) (f : Fld) (v : Nat) : (d.setFld o f v).ctxLevel = d.ctxLevel := rfl
@[simp] theorem Dev.setFld_ctxLast (o : Nat) (f : Fld) (v : Nat) : (d.setFld o f v).ctxLast = d.ctxLast := rfl
@[simp] theorem Dev.setFld_ctxRate (o : Nat) (f : Fld) (v : Nat) : (d.setFld o f v).ctxRate = d.ctxRate := rfl
@[simp] theorem Dev.setFld_ctxBurst (o : Nat) (f : Fld) (v : Nat) : (d.setFld o f v).ctxBurst = d.ctxBurst := rfl
@[simp] theorem Dev.setFld_bwrPend (o : Nat) (f : Fld) (v : Nat) : (d.setFld o f v).bwrPend = d.bwrPend := rfl
@[simp] theorem Dev.setFld_cyc16 (o : Nat) (f : Fld) (v : Nat) : (d.setFld o f v).cyc16 = d.cyc16 := rfl
@[simp] theorem Dev.setFld_ticks (o : Nat) (f : Fld) (v : Nat) : (d.setFld o f v).ticks = d.ticks := rfl
@[simp] theorem Dev.setFld_time (o : Nat) (f : Fld) (v : Nat) : (d.setFld o f v).time = d.time := rfl
@[simp] theorem Dev.setFld_flags (o : Nat) (f : Fld) (v : Nat) : (d.setFld o f v).flags = d.flags := rfl
@[simp] theorem Dev.setFld_queues (o : Nat) (f : Fld) (v : Nat) : (d.setFld o f v).queues = d.queues := rfl
@[simp] theorem Dev.setFld_ctxs (o : Nat) (f : Fld) (v : Nat) : (d.setFld o f v).ctxs = d.ctxs := rfl
@[simp] theorem Dev.setFld_owners (o : Nat) (f : Fld) (v : Nat) : (d.setFld o f v).owners = d.owners := rfl
@[simp] theorem Dev.setFld_sems (o : Nat) (f : Fld) (v : Nat) : (d.setFld o f v).sems = d.sems := rfl
@[simp] theorem Dev.setFld_ports (o : Nat) (f : Fld) (v : Nat) : (d.setFld o f v).ports = d.ports := rfl
@[simp] theorem Dev.setFld_commit (o : Nat) (f : Fld) (v : Nat) : (d.setFld o f v).commit = d.commit := rfl
@[simp] theorem Dev.setFld_bells (o : Nat) (f : Fld) (v : Nat) : (d.setFld o f v).bells = d.bells := rfl
@[simp] theorem Dev.setFld_units (o : Nat) (f : Fld) (v : Nat) : (d.setFld o f v).units = d.units := rfl
@[simp] theorem Dev.setFld_flog (o : Nat) (f : Fld) (v : Nat) : (d.setFld o f v).flog = d.flog := rfl
@[simp] theorem Dev.setFld_pm (o : Nat) (f : Fld) (v : Nat) : (d.setFld o f v).pm = d.pm := rfl
@[simp] theorem Dev.setFld_fw (o : Nat) (f : Fld) (v : Nat) : (d.setFld o f v).fw = d.fw := rfl
@[simp] theorem Dev.setFld_keep (o : Nat) (f : Fld) (v : Nat) : (d.setFld o f v).keep = d.keep := rfl
@[simp] theorem Dev.setFld_cps (o : Nat) (f : Fld) (v : Nat) : (d.setFld o f v).cps = d.cps := rfl
@[simp] theorem Dev.setFld_fab (o : Nat) (f : Fld) (v : Nat) : (d.setFld o f v).fab = d.fab := rfl
@[simp] theorem Dev.setFld_med (o : Nat) (f : Fld) (v : Nat) : (d.setFld o f v).med = d.med := rfl
@[simp] theorem Dev.setFld_refLost (o : Nat) (f : Fld) (v : Nat) : (d.setFld o f v).refLost = d.refLost := rfl
@[simp] theorem Dev.setFld_tripped (o : Nat) (f : Fld) (v : Nat) : (d.setFld o f v).tripped = d.tripped := rfl
@[simp] theorem Dev.setFld_out (o : Nat) (f : Fld) (v : Nat) : (d.setFld o f v).out = d.out := rfl

@[simp] theorem Dev.setFldP_ctr (p : Port) (o : Nat) (f : Fld) (v : Nat) : (d.setFldP p o f v).ctr = d.ctr := rfl
@[simp] theorem Dev.setFldP_epoch (p : Port) (o : Nat) (f : Fld) (v : Nat) : (d.setFldP p o f v).epoch = d.epoch := rfl
@[simp] theorem Dev.setFldP_mem (p : Port) (o : Nat) (f : Fld) (v : Nat) : (d.setFldP p o f v).mem = d.mem := rfl
@[simp] theorem Dev.setFldP_poison (p : Port) (o : Nat) (f : Fld) (v : Nat) : (d.setFldP p o f v).poison = d.poison := rfl
@[simp] theorem Dev.setFldP_stale (p : Port) (o : Nat) (f : Fld) (v : Nat) : (d.setFldP p o f v).stale = d.stale := rfl
@[simp] theorem Dev.setFldP_cap48 (p : Port) (o : Nat) (f : Fld) (v : Nat) : (d.setFldP p o f v).cap48 = d.cap48 := rfl
@[simp] theorem Dev.setFldP_lost (p : Port) (o : Nat) (f : Fld) (v : Nat) : (d.setFldP p o f v).lost = d.lost := rfl
@[simp] theorem Dev.setFldP_cores (p : Port) (o : Nat) (f : Fld) (v : Nat) : (d.setFldP p o f v).cores = d.cores := rfl
@[simp] theorem Dev.setFldP_jobs (p : Port) (o : Nat) (f : Fld) (v : Nat) : (d.setFldP p o f v).jobs = d.jobs := rfl
@[simp] theorem Dev.setFldP_ctxLevel (p : Port) (o : Nat) (f : Fld) (v : Nat) : (d.setFldP p o f v).ctxLevel = d.ctxLevel := rfl
@[simp] theorem Dev.setFldP_ctxLast (p : Port) (o : Nat) (f : Fld) (v : Nat) : (d.setFldP p o f v).ctxLast = d.ctxLast := rfl
@[simp] theorem Dev.setFldP_ctxRate (p : Port) (o : Nat) (f : Fld) (v : Nat) : (d.setFldP p o f v).ctxRate = d.ctxRate := rfl
@[simp] theorem Dev.setFldP_ctxBurst (p : Port) (o : Nat) (f : Fld) (v : Nat) : (d.setFldP p o f v).ctxBurst = d.ctxBurst := rfl
@[simp] theorem Dev.setFldP_bwrPend (p : Port) (o : Nat) (f : Fld) (v : Nat) : (d.setFldP p o f v).bwrPend = d.bwrPend := rfl
@[simp] theorem Dev.setFldP_cyc16 (p : Port) (o : Nat) (f : Fld) (v : Nat) : (d.setFldP p o f v).cyc16 = d.cyc16 := rfl
@[simp] theorem Dev.setFldP_ticks (p : Port) (o : Nat) (f : Fld) (v : Nat) : (d.setFldP p o f v).ticks = d.ticks := rfl
@[simp] theorem Dev.setFldP_time (p : Port) (o : Nat) (f : Fld) (v : Nat) : (d.setFldP p o f v).time = d.time := rfl
@[simp] theorem Dev.setFldP_flags (p : Port) (o : Nat) (f : Fld) (v : Nat) : (d.setFldP p o f v).flags = d.flags := rfl
@[simp] theorem Dev.setFldP_queues (p : Port) (o : Nat) (f : Fld) (v : Nat) : (d.setFldP p o f v).queues = d.queues := rfl
@[simp] theorem Dev.setFldP_ctxs (p : Port) (o : Nat) (f : Fld) (v : Nat) : (d.setFldP p o f v).ctxs = d.ctxs := rfl
@[simp] theorem Dev.setFldP_owners (p : Port) (o : Nat) (f : Fld) (v : Nat) : (d.setFldP p o f v).owners = d.owners := rfl
@[simp] theorem Dev.setFldP_sems (p : Port) (o : Nat) (f : Fld) (v : Nat) : (d.setFldP p o f v).sems = d.sems := rfl
@[simp] theorem Dev.setFldP_ports (p : Port) (o : Nat) (f : Fld) (v : Nat) : (d.setFldP p o f v).ports = d.ports := rfl
@[simp] theorem Dev.setFldP_commit (p : Port) (o : Nat) (f : Fld) (v : Nat) : (d.setFldP p o f v).commit = d.commit := rfl
@[simp] theorem Dev.setFldP_bells (p : Port) (o : Nat) (f : Fld) (v : Nat) : (d.setFldP p o f v).bells = d.bells := rfl
@[simp] theorem Dev.setFldP_units (p : Port) (o : Nat) (f : Fld) (v : Nat) : (d.setFldP p o f v).units = d.units := rfl
@[simp] theorem Dev.setFldP_flog (p : Port) (o : Nat) (f : Fld) (v : Nat) : (d.setFldP p o f v).flog = d.flog := rfl
@[simp] theorem Dev.setFldP_pm (p : Port) (o : Nat) (f : Fld) (v : Nat) : (d.setFldP p o f v).pm = d.pm := rfl
@[simp] theorem Dev.setFldP_fw (p : Port) (o : Nat) (f : Fld) (v : Nat) : (d.setFldP p o f v).fw = d.fw := rfl
@[simp] theorem Dev.setFldP_keep (p : Port) (o : Nat) (f : Fld) (v : Nat) : (d.setFldP p o f v).keep = d.keep := rfl
@[simp] theorem Dev.setFldP_cps (p : Port) (o : Nat) (f : Fld) (v : Nat) : (d.setFldP p o f v).cps = d.cps := rfl
@[simp] theorem Dev.setFldP_fab (p : Port) (o : Nat) (f : Fld) (v : Nat) : (d.setFldP p o f v).fab = d.fab := rfl
@[simp] theorem Dev.setFldP_med (p : Port) (o : Nat) (f : Fld) (v : Nat) : (d.setFldP p o f v).med = d.med := rfl
@[simp] theorem Dev.setFldP_refLost (p : Port) (o : Nat) (f : Fld) (v : Nat) : (d.setFldP p o f v).refLost = d.refLost := rfl
@[simp] theorem Dev.setFldP_tripped (p : Port) (o : Nat) (f : Fld) (v : Nat) : (d.setFldP p o f v).tripped = d.tripped := rfl
@[simp] theorem Dev.setFldP_out (p : Port) (o : Nat) (f : Fld) (v : Nat) : (d.setFldP p o f v).out = d.out := rfl

@[simp] theorem Dev.raise_ctr (o : Nat) (f : Fld) : (d.raise o f).ctr = d.ctr := rfl
@[simp] theorem Dev.raise_epoch (o : Nat) (f : Fld) : (d.raise o f).epoch = d.epoch := rfl
@[simp] theorem Dev.raise_mem (o : Nat) (f : Fld) : (d.raise o f).mem = d.mem := rfl
@[simp] theorem Dev.raise_poison (o : Nat) (f : Fld) : (d.raise o f).poison = d.poison := rfl
@[simp] theorem Dev.raise_stale (o : Nat) (f : Fld) : (d.raise o f).stale = d.stale := rfl
@[simp] theorem Dev.raise_cap48 (o : Nat) (f : Fld) : (d.raise o f).cap48 = d.cap48 := rfl
@[simp] theorem Dev.raise_lost (o : Nat) (f : Fld) : (d.raise o f).lost = d.lost := rfl
@[simp] theorem Dev.raise_cores (o : Nat) (f : Fld) : (d.raise o f).cores = d.cores := rfl
@[simp] theorem Dev.raise_jobs (o : Nat) (f : Fld) : (d.raise o f).jobs = d.jobs := rfl
@[simp] theorem Dev.raise_ctxLevel (o : Nat) (f : Fld) : (d.raise o f).ctxLevel = d.ctxLevel := rfl
@[simp] theorem Dev.raise_ctxLast (o : Nat) (f : Fld) : (d.raise o f).ctxLast = d.ctxLast := rfl
@[simp] theorem Dev.raise_ctxRate (o : Nat) (f : Fld) : (d.raise o f).ctxRate = d.ctxRate := rfl
@[simp] theorem Dev.raise_ctxBurst (o : Nat) (f : Fld) : (d.raise o f).ctxBurst = d.ctxBurst := rfl
@[simp] theorem Dev.raise_bwrPend (o : Nat) (f : Fld) : (d.raise o f).bwrPend = d.bwrPend := rfl
@[simp] theorem Dev.raise_cyc16 (o : Nat) (f : Fld) : (d.raise o f).cyc16 = d.cyc16 := rfl
@[simp] theorem Dev.raise_ticks (o : Nat) (f : Fld) : (d.raise o f).ticks = d.ticks := rfl
@[simp] theorem Dev.raise_time (o : Nat) (f : Fld) : (d.raise o f).time = d.time := rfl
@[simp] theorem Dev.raise_flags (o : Nat) (f : Fld) : (d.raise o f).flags = d.flags := rfl
@[simp] theorem Dev.raise_queues (o : Nat) (f : Fld) : (d.raise o f).queues = d.queues := rfl
@[simp] theorem Dev.raise_ctxs (o : Nat) (f : Fld) : (d.raise o f).ctxs = d.ctxs := rfl
@[simp] theorem Dev.raise_owners (o : Nat) (f : Fld) : (d.raise o f).owners = d.owners := rfl
@[simp] theorem Dev.raise_sems (o : Nat) (f : Fld) : (d.raise o f).sems = d.sems := rfl
@[simp] theorem Dev.raise_ports (o : Nat) (f : Fld) : (d.raise o f).ports = d.ports := rfl
@[simp] theorem Dev.raise_commit (o : Nat) (f : Fld) : (d.raise o f).commit = d.commit := rfl
@[simp] theorem Dev.raise_bells (o : Nat) (f : Fld) : (d.raise o f).bells = d.bells := rfl
@[simp] theorem Dev.raise_units (o : Nat) (f : Fld) : (d.raise o f).units = d.units := rfl
@[simp] theorem Dev.raise_flog (o : Nat) (f : Fld) : (d.raise o f).flog = d.flog := rfl
@[simp] theorem Dev.raise_pm (o : Nat) (f : Fld) : (d.raise o f).pm = d.pm := rfl
@[simp] theorem Dev.raise_fw (o : Nat) (f : Fld) : (d.raise o f).fw = d.fw := rfl
@[simp] theorem Dev.raise_keep (o : Nat) (f : Fld) : (d.raise o f).keep = d.keep := rfl
@[simp] theorem Dev.raise_cps (o : Nat) (f : Fld) : (d.raise o f).cps = d.cps := rfl
@[simp] theorem Dev.raise_fab (o : Nat) (f : Fld) : (d.raise o f).fab = d.fab := rfl
@[simp] theorem Dev.raise_med (o : Nat) (f : Fld) : (d.raise o f).med = d.med := rfl
@[simp] theorem Dev.raise_refLost (o : Nat) (f : Fld) : (d.raise o f).refLost = d.refLost := rfl
@[simp] theorem Dev.raise_tripped (o : Nat) (f : Fld) : (d.raise o f).tripped = d.tripped := rfl
@[simp] theorem Dev.raise_out (o : Nat) (f : Fld) : (d.raise o f).out = d.out := rfl

@[simp] theorem Dev.addReg_ctr (o n : Nat) : (d.addReg o n).ctr = d.ctr := rfl
@[simp] theorem Dev.addReg_epoch (o n : Nat) : (d.addReg o n).epoch = d.epoch := rfl
@[simp] theorem Dev.addReg_mem (o n : Nat) : (d.addReg o n).mem = d.mem := rfl
@[simp] theorem Dev.addReg_poison (o n : Nat) : (d.addReg o n).poison = d.poison := rfl
@[simp] theorem Dev.addReg_stale (o n : Nat) : (d.addReg o n).stale = d.stale := rfl
@[simp] theorem Dev.addReg_cap48 (o n : Nat) : (d.addReg o n).cap48 = d.cap48 := rfl
@[simp] theorem Dev.addReg_lost (o n : Nat) : (d.addReg o n).lost = d.lost := rfl
@[simp] theorem Dev.addReg_cores (o n : Nat) : (d.addReg o n).cores = d.cores := rfl
@[simp] theorem Dev.addReg_jobs (o n : Nat) : (d.addReg o n).jobs = d.jobs := rfl
@[simp] theorem Dev.addReg_ctxLevel (o n : Nat) : (d.addReg o n).ctxLevel = d.ctxLevel := rfl
@[simp] theorem Dev.addReg_ctxLast (o n : Nat) : (d.addReg o n).ctxLast = d.ctxLast := rfl
@[simp] theorem Dev.addReg_ctxRate (o n : Nat) : (d.addReg o n).ctxRate = d.ctxRate := rfl
@[simp] theorem Dev.addReg_ctxBurst (o n : Nat) : (d.addReg o n).ctxBurst = d.ctxBurst := rfl
@[simp] theorem Dev.addReg_bwrPend (o n : Nat) : (d.addReg o n).bwrPend = d.bwrPend := rfl
@[simp] theorem Dev.addReg_cyc16 (o n : Nat) : (d.addReg o n).cyc16 = d.cyc16 := rfl
@[simp] theorem Dev.addReg_ticks (o n : Nat) : (d.addReg o n).ticks = d.ticks := rfl
@[simp] theorem Dev.addReg_time (o n : Nat) : (d.addReg o n).time = d.time := rfl
@[simp] theorem Dev.addReg_flags (o n : Nat) : (d.addReg o n).flags = d.flags := rfl
@[simp] theorem Dev.addReg_queues (o n : Nat) : (d.addReg o n).queues = d.queues := rfl
@[simp] theorem Dev.addReg_ctxs (o n : Nat) : (d.addReg o n).ctxs = d.ctxs := rfl
@[simp] theorem Dev.addReg_owners (o n : Nat) : (d.addReg o n).owners = d.owners := rfl
@[simp] theorem Dev.addReg_sems (o n : Nat) : (d.addReg o n).sems = d.sems := rfl
@[simp] theorem Dev.addReg_ports (o n : Nat) : (d.addReg o n).ports = d.ports := rfl
@[simp] theorem Dev.addReg_commit (o n : Nat) : (d.addReg o n).commit = d.commit := rfl
@[simp] theorem Dev.addReg_bells (o n : Nat) : (d.addReg o n).bells = d.bells := rfl
@[simp] theorem Dev.addReg_units (o n : Nat) : (d.addReg o n).units = d.units := rfl
@[simp] theorem Dev.addReg_flog (o n : Nat) : (d.addReg o n).flog = d.flog := rfl
@[simp] theorem Dev.addReg_pm (o n : Nat) : (d.addReg o n).pm = d.pm := rfl
@[simp] theorem Dev.addReg_fw (o n : Nat) : (d.addReg o n).fw = d.fw := rfl
@[simp] theorem Dev.addReg_keep (o n : Nat) : (d.addReg o n).keep = d.keep := rfl
@[simp] theorem Dev.addReg_cps (o n : Nat) : (d.addReg o n).cps = d.cps := rfl
@[simp] theorem Dev.addReg_fab (o n : Nat) : (d.addReg o n).fab = d.fab := rfl
@[simp] theorem Dev.addReg_med (o n : Nat) : (d.addReg o n).med = d.med := rfl
@[simp] theorem Dev.addReg_refLost (o n : Nat) : (d.addReg o n).refLost = d.refLost := rfl
@[simp] theorem Dev.addReg_tripped (o n : Nat) : (d.addReg o n).tripped = d.tripped := rfl
@[simp] theorem Dev.addReg_out (o n : Nat) : (d.addReg o n).out = d.out := rfl

@[simp] theorem Dev.satReg_ctr (o n : Nat) : (d.satReg o n).ctr = d.ctr := rfl
@[simp] theorem Dev.satReg_epoch (o n : Nat) : (d.satReg o n).epoch = d.epoch := rfl
@[simp] theorem Dev.satReg_mem (o n : Nat) : (d.satReg o n).mem = d.mem := rfl
@[simp] theorem Dev.satReg_poison (o n : Nat) : (d.satReg o n).poison = d.poison := rfl
@[simp] theorem Dev.satReg_stale (o n : Nat) : (d.satReg o n).stale = d.stale := rfl
@[simp] theorem Dev.satReg_cap48 (o n : Nat) : (d.satReg o n).cap48 = d.cap48 := rfl
@[simp] theorem Dev.satReg_lost (o n : Nat) : (d.satReg o n).lost = d.lost := rfl
@[simp] theorem Dev.satReg_cores (o n : Nat) : (d.satReg o n).cores = d.cores := rfl
@[simp] theorem Dev.satReg_jobs (o n : Nat) : (d.satReg o n).jobs = d.jobs := rfl
@[simp] theorem Dev.satReg_ctxLevel (o n : Nat) : (d.satReg o n).ctxLevel = d.ctxLevel := rfl
@[simp] theorem Dev.satReg_ctxLast (o n : Nat) : (d.satReg o n).ctxLast = d.ctxLast := rfl
@[simp] theorem Dev.satReg_ctxRate (o n : Nat) : (d.satReg o n).ctxRate = d.ctxRate := rfl
@[simp] theorem Dev.satReg_ctxBurst (o n : Nat) : (d.satReg o n).ctxBurst = d.ctxBurst := rfl
@[simp] theorem Dev.satReg_bwrPend (o n : Nat) : (d.satReg o n).bwrPend = d.bwrPend := rfl
@[simp] theorem Dev.satReg_cyc16 (o n : Nat) : (d.satReg o n).cyc16 = d.cyc16 := rfl
@[simp] theorem Dev.satReg_ticks (o n : Nat) : (d.satReg o n).ticks = d.ticks := rfl
@[simp] theorem Dev.satReg_time (o n : Nat) : (d.satReg o n).time = d.time := rfl
@[simp] theorem Dev.satReg_flags (o n : Nat) : (d.satReg o n).flags = d.flags := rfl
@[simp] theorem Dev.satReg_queues (o n : Nat) : (d.satReg o n).queues = d.queues := rfl
@[simp] theorem Dev.satReg_ctxs (o n : Nat) : (d.satReg o n).ctxs = d.ctxs := rfl
@[simp] theorem Dev.satReg_owners (o n : Nat) : (d.satReg o n).owners = d.owners := rfl
@[simp] theorem Dev.satReg_sems (o n : Nat) : (d.satReg o n).sems = d.sems := rfl
@[simp] theorem Dev.satReg_ports (o n : Nat) : (d.satReg o n).ports = d.ports := rfl
@[simp] theorem Dev.satReg_commit (o n : Nat) : (d.satReg o n).commit = d.commit := rfl
@[simp] theorem Dev.satReg_bells (o n : Nat) : (d.satReg o n).bells = d.bells := rfl
@[simp] theorem Dev.satReg_units (o n : Nat) : (d.satReg o n).units = d.units := rfl
@[simp] theorem Dev.satReg_flog (o n : Nat) : (d.satReg o n).flog = d.flog := rfl
@[simp] theorem Dev.satReg_pm (o n : Nat) : (d.satReg o n).pm = d.pm := rfl
@[simp] theorem Dev.satReg_fw (o n : Nat) : (d.satReg o n).fw = d.fw := rfl
@[simp] theorem Dev.satReg_keep (o n : Nat) : (d.satReg o n).keep = d.keep := rfl
@[simp] theorem Dev.satReg_cps (o n : Nat) : (d.satReg o n).cps = d.cps := rfl
@[simp] theorem Dev.satReg_fab (o n : Nat) : (d.satReg o n).fab = d.fab := rfl
@[simp] theorem Dev.satReg_med (o n : Nat) : (d.satReg o n).med = d.med := rfl
@[simp] theorem Dev.satReg_refLost (o n : Nat) : (d.satReg o n).refLost = d.refLost := rfl
@[simp] theorem Dev.satReg_tripped (o n : Nat) : (d.satReg o n).tripped = d.tripped := rfl
@[simp] theorem Dev.satReg_out (o n : Nat) : (d.satReg o n).out = d.out := rfl

@[simp] theorem Dev.setReg64_ctr (lo hi v : Nat) : (d.setReg64 lo hi v).ctr = d.ctr := rfl
@[simp] theorem Dev.setReg64_epoch (lo hi v : Nat) : (d.setReg64 lo hi v).epoch = d.epoch := rfl
@[simp] theorem Dev.setReg64_mem (lo hi v : Nat) : (d.setReg64 lo hi v).mem = d.mem := rfl
@[simp] theorem Dev.setReg64_poison (lo hi v : Nat) : (d.setReg64 lo hi v).poison = d.poison := rfl
@[simp] theorem Dev.setReg64_stale (lo hi v : Nat) : (d.setReg64 lo hi v).stale = d.stale := rfl
@[simp] theorem Dev.setReg64_cap48 (lo hi v : Nat) : (d.setReg64 lo hi v).cap48 = d.cap48 := rfl
@[simp] theorem Dev.setReg64_lost (lo hi v : Nat) : (d.setReg64 lo hi v).lost = d.lost := rfl
@[simp] theorem Dev.setReg64_cores (lo hi v : Nat) : (d.setReg64 lo hi v).cores = d.cores := rfl
@[simp] theorem Dev.setReg64_jobs (lo hi v : Nat) : (d.setReg64 lo hi v).jobs = d.jobs := rfl
@[simp] theorem Dev.setReg64_ctxLevel (lo hi v : Nat) : (d.setReg64 lo hi v).ctxLevel = d.ctxLevel := rfl
@[simp] theorem Dev.setReg64_ctxLast (lo hi v : Nat) : (d.setReg64 lo hi v).ctxLast = d.ctxLast := rfl
@[simp] theorem Dev.setReg64_ctxRate (lo hi v : Nat) : (d.setReg64 lo hi v).ctxRate = d.ctxRate := rfl
@[simp] theorem Dev.setReg64_ctxBurst (lo hi v : Nat) : (d.setReg64 lo hi v).ctxBurst = d.ctxBurst := rfl
@[simp] theorem Dev.setReg64_bwrPend (lo hi v : Nat) : (d.setReg64 lo hi v).bwrPend = d.bwrPend := rfl
@[simp] theorem Dev.setReg64_cyc16 (lo hi v : Nat) : (d.setReg64 lo hi v).cyc16 = d.cyc16 := rfl
@[simp] theorem Dev.setReg64_ticks (lo hi v : Nat) : (d.setReg64 lo hi v).ticks = d.ticks := rfl
@[simp] theorem Dev.setReg64_time (lo hi v : Nat) : (d.setReg64 lo hi v).time = d.time := rfl
@[simp] theorem Dev.setReg64_flags (lo hi v : Nat) : (d.setReg64 lo hi v).flags = d.flags := rfl
@[simp] theorem Dev.setReg64_queues (lo hi v : Nat) : (d.setReg64 lo hi v).queues = d.queues := rfl
@[simp] theorem Dev.setReg64_ctxs (lo hi v : Nat) : (d.setReg64 lo hi v).ctxs = d.ctxs := rfl
@[simp] theorem Dev.setReg64_owners (lo hi v : Nat) : (d.setReg64 lo hi v).owners = d.owners := rfl
@[simp] theorem Dev.setReg64_sems (lo hi v : Nat) : (d.setReg64 lo hi v).sems = d.sems := rfl
@[simp] theorem Dev.setReg64_ports (lo hi v : Nat) : (d.setReg64 lo hi v).ports = d.ports := rfl
@[simp] theorem Dev.setReg64_commit (lo hi v : Nat) : (d.setReg64 lo hi v).commit = d.commit := rfl
@[simp] theorem Dev.setReg64_bells (lo hi v : Nat) : (d.setReg64 lo hi v).bells = d.bells := rfl
@[simp] theorem Dev.setReg64_units (lo hi v : Nat) : (d.setReg64 lo hi v).units = d.units := rfl
@[simp] theorem Dev.setReg64_flog (lo hi v : Nat) : (d.setReg64 lo hi v).flog = d.flog := rfl
@[simp] theorem Dev.setReg64_pm (lo hi v : Nat) : (d.setReg64 lo hi v).pm = d.pm := rfl
@[simp] theorem Dev.setReg64_fw (lo hi v : Nat) : (d.setReg64 lo hi v).fw = d.fw := rfl
@[simp] theorem Dev.setReg64_keep (lo hi v : Nat) : (d.setReg64 lo hi v).keep = d.keep := rfl
@[simp] theorem Dev.setReg64_cps (lo hi v : Nat) : (d.setReg64 lo hi v).cps = d.cps := rfl
@[simp] theorem Dev.setReg64_fab (lo hi v : Nat) : (d.setReg64 lo hi v).fab = d.fab := rfl
@[simp] theorem Dev.setReg64_med (lo hi v : Nat) : (d.setReg64 lo hi v).med = d.med := rfl
@[simp] theorem Dev.setReg64_refLost (lo hi v : Nat) : (d.setReg64 lo hi v).refLost = d.refLost := rfl
@[simp] theorem Dev.setReg64_tripped (lo hi v : Nat) : (d.setReg64 lo hi v).tripped = d.tripped := rfl
@[simp] theorem Dev.setReg64_out (lo hi v : Nat) : (d.setReg64 lo hi v).out = d.out := rfl

@[simp] theorem Dev.add64_ctr (lo hi n : Nat) : (d.add64 lo hi n).ctr = d.ctr := rfl
@[simp] theorem Dev.add64_epoch (lo hi n : Nat) : (d.add64 lo hi n).epoch = d.epoch := rfl
@[simp] theorem Dev.add64_mem (lo hi n : Nat) : (d.add64 lo hi n).mem = d.mem := rfl
@[simp] theorem Dev.add64_poison (lo hi n : Nat) : (d.add64 lo hi n).poison = d.poison := rfl
@[simp] theorem Dev.add64_stale (lo hi n : Nat) : (d.add64 lo hi n).stale = d.stale := rfl
@[simp] theorem Dev.add64_cap48 (lo hi n : Nat) : (d.add64 lo hi n).cap48 = d.cap48 := rfl
@[simp] theorem Dev.add64_lost (lo hi n : Nat) : (d.add64 lo hi n).lost = d.lost := rfl
@[simp] theorem Dev.add64_cores (lo hi n : Nat) : (d.add64 lo hi n).cores = d.cores := rfl
@[simp] theorem Dev.add64_jobs (lo hi n : Nat) : (d.add64 lo hi n).jobs = d.jobs := rfl
@[simp] theorem Dev.add64_ctxLevel (lo hi n : Nat) : (d.add64 lo hi n).ctxLevel = d.ctxLevel := rfl
@[simp] theorem Dev.add64_ctxLast (lo hi n : Nat) : (d.add64 lo hi n).ctxLast = d.ctxLast := rfl
@[simp] theorem Dev.add64_ctxRate (lo hi n : Nat) : (d.add64 lo hi n).ctxRate = d.ctxRate := rfl
@[simp] theorem Dev.add64_ctxBurst (lo hi n : Nat) : (d.add64 lo hi n).ctxBurst = d.ctxBurst := rfl
@[simp] theorem Dev.add64_bwrPend (lo hi n : Nat) : (d.add64 lo hi n).bwrPend = d.bwrPend := rfl
@[simp] theorem Dev.add64_cyc16 (lo hi n : Nat) : (d.add64 lo hi n).cyc16 = d.cyc16 := rfl
@[simp] theorem Dev.add64_ticks (lo hi n : Nat) : (d.add64 lo hi n).ticks = d.ticks := rfl
@[simp] theorem Dev.add64_time (lo hi n : Nat) : (d.add64 lo hi n).time = d.time := rfl
@[simp] theorem Dev.add64_flags (lo hi n : Nat) : (d.add64 lo hi n).flags = d.flags := rfl
@[simp] theorem Dev.add64_queues (lo hi n : Nat) : (d.add64 lo hi n).queues = d.queues := rfl
@[simp] theorem Dev.add64_ctxs (lo hi n : Nat) : (d.add64 lo hi n).ctxs = d.ctxs := rfl
@[simp] theorem Dev.add64_owners (lo hi n : Nat) : (d.add64 lo hi n).owners = d.owners := rfl
@[simp] theorem Dev.add64_sems (lo hi n : Nat) : (d.add64 lo hi n).sems = d.sems := rfl
@[simp] theorem Dev.add64_ports (lo hi n : Nat) : (d.add64 lo hi n).ports = d.ports := rfl
@[simp] theorem Dev.add64_commit (lo hi n : Nat) : (d.add64 lo hi n).commit = d.commit := rfl
@[simp] theorem Dev.add64_bells (lo hi n : Nat) : (d.add64 lo hi n).bells = d.bells := rfl
@[simp] theorem Dev.add64_units (lo hi n : Nat) : (d.add64 lo hi n).units = d.units := rfl
@[simp] theorem Dev.add64_flog (lo hi n : Nat) : (d.add64 lo hi n).flog = d.flog := rfl
@[simp] theorem Dev.add64_pm (lo hi n : Nat) : (d.add64 lo hi n).pm = d.pm := rfl
@[simp] theorem Dev.add64_fw (lo hi n : Nat) : (d.add64 lo hi n).fw = d.fw := rfl
@[simp] theorem Dev.add64_keep (lo hi n : Nat) : (d.add64 lo hi n).keep = d.keep := rfl
@[simp] theorem Dev.add64_cps (lo hi n : Nat) : (d.add64 lo hi n).cps = d.cps := rfl
@[simp] theorem Dev.add64_fab (lo hi n : Nat) : (d.add64 lo hi n).fab = d.fab := rfl
@[simp] theorem Dev.add64_med (lo hi n : Nat) : (d.add64 lo hi n).med = d.med := rfl
@[simp] theorem Dev.add64_refLost (lo hi n : Nat) : (d.add64 lo hi n).refLost = d.refLost := rfl
@[simp] theorem Dev.add64_tripped (lo hi n : Nat) : (d.add64 lo hi n).tripped = d.tripped := rfl
@[simp] theorem Dev.add64_out (lo hi n : Nat) : (d.add64 lo hi n).out = d.out := rfl

@[simp] theorem Dev.setCore_ctr (n : Nat) (c : Core) : (d.setCore n c).ctr = d.ctr := rfl
@[simp] theorem Dev.setCore_epoch (n : Nat) (c : Core) : (d.setCore n c).epoch = d.epoch := rfl
@[simp] theorem Dev.setCore_regs (n : Nat) (c : Core) : (d.setCore n c).regs = d.regs := rfl
@[simp] theorem Dev.setCore_mem (n : Nat) (c : Core) : (d.setCore n c).mem = d.mem := rfl
@[simp] theorem Dev.setCore_poison (n : Nat) (c : Core) : (d.setCore n c).poison = d.poison := rfl
@[simp] theorem Dev.setCore_stale (n : Nat) (c : Core) : (d.setCore n c).stale = d.stale := rfl
@[simp] theorem Dev.setCore_cap48 (n : Nat) (c : Core) : (d.setCore n c).cap48 = d.cap48 := rfl
@[simp] theorem Dev.setCore_lost (n : Nat) (c : Core) : (d.setCore n c).lost = d.lost := rfl
@[simp] theorem Dev.setCore_jobs (n : Nat) (c : Core) : (d.setCore n c).jobs = d.jobs := rfl
@[simp] theorem Dev.setCore_ctxLevel (n : Nat) (c : Core) : (d.setCore n c).ctxLevel = d.ctxLevel := rfl
@[simp] theorem Dev.setCore_ctxLast (n : Nat) (c : Core) : (d.setCore n c).ctxLast = d.ctxLast := rfl
@[simp] theorem Dev.setCore_ctxRate (n : Nat) (c : Core) : (d.setCore n c).ctxRate = d.ctxRate := rfl
@[simp] theorem Dev.setCore_ctxBurst (n : Nat) (c : Core) : (d.setCore n c).ctxBurst = d.ctxBurst := rfl
@[simp] theorem Dev.setCore_bwrPend (n : Nat) (c : Core) : (d.setCore n c).bwrPend = d.bwrPend := rfl
@[simp] theorem Dev.setCore_cyc16 (n : Nat) (c : Core) : (d.setCore n c).cyc16 = d.cyc16 := rfl
@[simp] theorem Dev.setCore_ticks (n : Nat) (c : Core) : (d.setCore n c).ticks = d.ticks := rfl
@[simp] theorem Dev.setCore_time (n : Nat) (c : Core) : (d.setCore n c).time = d.time := rfl
@[simp] theorem Dev.setCore_flags (n : Nat) (c : Core) : (d.setCore n c).flags = d.flags := rfl
@[simp] theorem Dev.setCore_queues (n : Nat) (c : Core) : (d.setCore n c).queues = d.queues := rfl
@[simp] theorem Dev.setCore_ctxs (n : Nat) (c : Core) : (d.setCore n c).ctxs = d.ctxs := rfl
@[simp] theorem Dev.setCore_owners (n : Nat) (c : Core) : (d.setCore n c).owners = d.owners := rfl
@[simp] theorem Dev.setCore_sems (n : Nat) (c : Core) : (d.setCore n c).sems = d.sems := rfl
@[simp] theorem Dev.setCore_ports (n : Nat) (c : Core) : (d.setCore n c).ports = d.ports := rfl
@[simp] theorem Dev.setCore_commit (n : Nat) (c : Core) : (d.setCore n c).commit = d.commit := rfl
@[simp] theorem Dev.setCore_bells (n : Nat) (c : Core) : (d.setCore n c).bells = d.bells := rfl
@[simp] theorem Dev.setCore_units (n : Nat) (c : Core) : (d.setCore n c).units = d.units := rfl
@[simp] theorem Dev.setCore_flog (n : Nat) (c : Core) : (d.setCore n c).flog = d.flog := rfl
@[simp] theorem Dev.setCore_pm (n : Nat) (c : Core) : (d.setCore n c).pm = d.pm := rfl
@[simp] theorem Dev.setCore_fw (n : Nat) (c : Core) : (d.setCore n c).fw = d.fw := rfl
@[simp] theorem Dev.setCore_keep (n : Nat) (c : Core) : (d.setCore n c).keep = d.keep := rfl
@[simp] theorem Dev.setCore_cps (n : Nat) (c : Core) : (d.setCore n c).cps = d.cps := rfl
@[simp] theorem Dev.setCore_fab (n : Nat) (c : Core) : (d.setCore n c).fab = d.fab := rfl
@[simp] theorem Dev.setCore_med (n : Nat) (c : Core) : (d.setCore n c).med = d.med := rfl
@[simp] theorem Dev.setCore_refLost (n : Nat) (c : Core) : (d.setCore n c).refLost = d.refLost := rfl
@[simp] theorem Dev.setCore_tripped (n : Nat) (c : Core) : (d.setCore n c).tripped = d.tripped := rfl
@[simp] theorem Dev.setCore_out (n : Nat) (c : Core) : (d.setCore n c).out = d.out := rfl

@[simp] theorem Dev.updCore_ctr (n : Nat) (f : Core → Core) : (d.updCore n f).ctr = d.ctr := rfl
@[simp] theorem Dev.updCore_epoch (n : Nat) (f : Core → Core) : (d.updCore n f).epoch = d.epoch := rfl
@[simp] theorem Dev.updCore_regs (n : Nat) (f : Core → Core) : (d.updCore n f).regs = d.regs := rfl
@[simp] theorem Dev.updCore_mem (n : Nat) (f : Core → Core) : (d.updCore n f).mem = d.mem := rfl
@[simp] theorem Dev.updCore_poison (n : Nat) (f : Core → Core) : (d.updCore n f).poison = d.poison := rfl
@[simp] theorem Dev.updCore_stale (n : Nat) (f : Core → Core) : (d.updCore n f).stale = d.stale := rfl
@[simp] theorem Dev.updCore_cap48 (n : Nat) (f : Core → Core) : (d.updCore n f).cap48 = d.cap48 := rfl
@[simp] theorem Dev.updCore_lost (n : Nat) (f : Core → Core) : (d.updCore n f).lost = d.lost := rfl
@[simp] theorem Dev.updCore_jobs (n : Nat) (f : Core → Core) : (d.updCore n f).jobs = d.jobs := rfl
@[simp] theorem Dev.updCore_ctxLevel (n : Nat) (f : Core → Core) : (d.updCore n f).ctxLevel = d.ctxLevel := rfl
@[simp] theorem Dev.updCore_ctxLast (n : Nat) (f : Core → Core) : (d.updCore n f).ctxLast = d.ctxLast := rfl
@[simp] theorem Dev.updCore_ctxRate (n : Nat) (f : Core → Core) : (d.updCore n f).ctxRate = d.ctxRate := rfl
@[simp] theorem Dev.updCore_ctxBurst (n : Nat) (f : Core → Core) : (d.updCore n f).ctxBurst = d.ctxBurst := rfl
@[simp] theorem Dev.updCore_bwrPend (n : Nat) (f : Core → Core) : (d.updCore n f).bwrPend = d.bwrPend := rfl
@[simp] theorem Dev.updCore_cyc16 (n : Nat) (f : Core → Core) : (d.updCore n f).cyc16 = d.cyc16 := rfl
@[simp] theorem Dev.updCore_ticks (n : Nat) (f : Core → Core) : (d.updCore n f).ticks = d.ticks := rfl
@[simp] theorem Dev.updCore_time (n : Nat) (f : Core → Core) : (d.updCore n f).time = d.time := rfl
@[simp] theorem Dev.updCore_flags (n : Nat) (f : Core → Core) : (d.updCore n f).flags = d.flags := rfl
@[simp] theorem Dev.updCore_queues (n : Nat) (f : Core → Core) : (d.updCore n f).queues = d.queues := rfl
@[simp] theorem Dev.updCore_ctxs (n : Nat) (f : Core → Core) : (d.updCore n f).ctxs = d.ctxs := rfl
@[simp] theorem Dev.updCore_owners (n : Nat) (f : Core → Core) : (d.updCore n f).owners = d.owners := rfl
@[simp] theorem Dev.updCore_sems (n : Nat) (f : Core → Core) : (d.updCore n f).sems = d.sems := rfl
@[simp] theorem Dev.updCore_ports (n : Nat) (f : Core → Core) : (d.updCore n f).ports = d.ports := rfl
@[simp] theorem Dev.updCore_commit (n : Nat) (f : Core → Core) : (d.updCore n f).commit = d.commit := rfl
@[simp] theorem Dev.updCore_bells (n : Nat) (f : Core → Core) : (d.updCore n f).bells = d.bells := rfl
@[simp] theorem Dev.updCore_units (n : Nat) (f : Core → Core) : (d.updCore n f).units = d.units := rfl
@[simp] theorem Dev.updCore_flog (n : Nat) (f : Core → Core) : (d.updCore n f).flog = d.flog := rfl
@[simp] theorem Dev.updCore_pm (n : Nat) (f : Core → Core) : (d.updCore n f).pm = d.pm := rfl
@[simp] theorem Dev.updCore_fw (n : Nat) (f : Core → Core) : (d.updCore n f).fw = d.fw := rfl
@[simp] theorem Dev.updCore_keep (n : Nat) (f : Core → Core) : (d.updCore n f).keep = d.keep := rfl
@[simp] theorem Dev.updCore_cps (n : Nat) (f : Core → Core) : (d.updCore n f).cps = d.cps := rfl
@[simp] theorem Dev.updCore_fab (n : Nat) (f : Core → Core) : (d.updCore n f).fab = d.fab := rfl
@[simp] theorem Dev.updCore_med (n : Nat) (f : Core → Core) : (d.updCore n f).med = d.med := rfl
@[simp] theorem Dev.updCore_refLost (n : Nat) (f : Core → Core) : (d.updCore n f).refLost = d.refLost := rfl
@[simp] theorem Dev.updCore_tripped (n : Nat) (f : Core → Core) : (d.updCore n f).tripped = d.tripped := rfl
@[simp] theorem Dev.updCore_out (n : Nat) (f : Core → Core) : (d.updCore n f).out = d.out := rfl

@[simp] theorem Dev.setJob_ctr (n : Nat) (j : Job) : (d.setJob n j).ctr = d.ctr := rfl
@[simp] theorem Dev.setJob_epoch (n : Nat) (j : Job) : (d.setJob n j).epoch = d.epoch := rfl
@[simp] theorem Dev.setJob_regs (n : Nat) (j : Job) : (d.setJob n j).regs = d.regs := rfl
@[simp] theorem Dev.setJob_mem (n : Nat) (j : Job) : (d.setJob n j).mem = d.mem := rfl
@[simp] theorem Dev.setJob_poison (n : Nat) (j : Job) : (d.setJob n j).poison = d.poison := rfl
@[simp] theorem Dev.setJob_stale (n : Nat) (j : Job) : (d.setJob n j).stale = d.stale := rfl
@[simp] theorem Dev.setJob_cap48 (n : Nat) (j : Job) : (d.setJob n j).cap48 = d.cap48 := rfl
@[simp] theorem Dev.setJob_lost (n : Nat) (j : Job) : (d.setJob n j).lost = d.lost := rfl
@[simp] theorem Dev.setJob_cores (n : Nat) (j : Job) : (d.setJob n j).cores = d.cores := rfl
@[simp] theorem Dev.setJob_ctxLevel (n : Nat) (j : Job) : (d.setJob n j).ctxLevel = d.ctxLevel := rfl
@[simp] theorem Dev.setJob_ctxLast (n : Nat) (j : Job) : (d.setJob n j).ctxLast = d.ctxLast := rfl
@[simp] theorem Dev.setJob_ctxRate (n : Nat) (j : Job) : (d.setJob n j).ctxRate = d.ctxRate := rfl
@[simp] theorem Dev.setJob_ctxBurst (n : Nat) (j : Job) : (d.setJob n j).ctxBurst = d.ctxBurst := rfl
@[simp] theorem Dev.setJob_bwrPend (n : Nat) (j : Job) : (d.setJob n j).bwrPend = d.bwrPend := rfl
@[simp] theorem Dev.setJob_cyc16 (n : Nat) (j : Job) : (d.setJob n j).cyc16 = d.cyc16 := rfl
@[simp] theorem Dev.setJob_ticks (n : Nat) (j : Job) : (d.setJob n j).ticks = d.ticks := rfl
@[simp] theorem Dev.setJob_time (n : Nat) (j : Job) : (d.setJob n j).time = d.time := rfl
@[simp] theorem Dev.setJob_flags (n : Nat) (j : Job) : (d.setJob n j).flags = d.flags := rfl
@[simp] theorem Dev.setJob_queues (n : Nat) (j : Job) : (d.setJob n j).queues = d.queues := rfl
@[simp] theorem Dev.setJob_ctxs (n : Nat) (j : Job) : (d.setJob n j).ctxs = d.ctxs := rfl
@[simp] theorem Dev.setJob_owners (n : Nat) (j : Job) : (d.setJob n j).owners = d.owners := rfl
@[simp] theorem Dev.setJob_sems (n : Nat) (j : Job) : (d.setJob n j).sems = d.sems := rfl
@[simp] theorem Dev.setJob_ports (n : Nat) (j : Job) : (d.setJob n j).ports = d.ports := rfl
@[simp] theorem Dev.setJob_commit (n : Nat) (j : Job) : (d.setJob n j).commit = d.commit := rfl
@[simp] theorem Dev.setJob_bells (n : Nat) (j : Job) : (d.setJob n j).bells = d.bells := rfl
@[simp] theorem Dev.setJob_units (n : Nat) (j : Job) : (d.setJob n j).units = d.units := rfl
@[simp] theorem Dev.setJob_flog (n : Nat) (j : Job) : (d.setJob n j).flog = d.flog := rfl
@[simp] theorem Dev.setJob_pm (n : Nat) (j : Job) : (d.setJob n j).pm = d.pm := rfl
@[simp] theorem Dev.setJob_fw (n : Nat) (j : Job) : (d.setJob n j).fw = d.fw := rfl
@[simp] theorem Dev.setJob_keep (n : Nat) (j : Job) : (d.setJob n j).keep = d.keep := rfl
@[simp] theorem Dev.setJob_cps (n : Nat) (j : Job) : (d.setJob n j).cps = d.cps := rfl
@[simp] theorem Dev.setJob_fab (n : Nat) (j : Job) : (d.setJob n j).fab = d.fab := rfl
@[simp] theorem Dev.setJob_med (n : Nat) (j : Job) : (d.setJob n j).med = d.med := rfl
@[simp] theorem Dev.setJob_refLost (n : Nat) (j : Job) : (d.setJob n j).refLost = d.refLost := rfl
@[simp] theorem Dev.setJob_tripped (n : Nat) (j : Job) : (d.setJob n j).tripped = d.tripped := rfl
@[simp] theorem Dev.setJob_out (n : Nat) (j : Job) : (d.setJob n j).out = d.out := rfl

@[simp] theorem Dev.updPort_ctr (p : Port) (f : PortSt → PortSt) : (d.updPort p f).ctr = d.ctr := rfl
@[simp] theorem Dev.updPort_epoch (p : Port) (f : PortSt → PortSt) : (d.updPort p f).epoch = d.epoch := rfl
@[simp] theorem Dev.updPort_regs (p : Port) (f : PortSt → PortSt) : (d.updPort p f).regs = d.regs := rfl
@[simp] theorem Dev.updPort_mem (p : Port) (f : PortSt → PortSt) : (d.updPort p f).mem = d.mem := rfl
@[simp] theorem Dev.updPort_poison (p : Port) (f : PortSt → PortSt) : (d.updPort p f).poison = d.poison := rfl
@[simp] theorem Dev.updPort_stale (p : Port) (f : PortSt → PortSt) : (d.updPort p f).stale = d.stale := rfl
@[simp] theorem Dev.updPort_cap48 (p : Port) (f : PortSt → PortSt) : (d.updPort p f).cap48 = d.cap48 := rfl
@[simp] theorem Dev.updPort_lost (p : Port) (f : PortSt → PortSt) : (d.updPort p f).lost = d.lost := rfl
@[simp] theorem Dev.updPort_cores (p : Port) (f : PortSt → PortSt) : (d.updPort p f).cores = d.cores := rfl
@[simp] theorem Dev.updPort_jobs (p : Port) (f : PortSt → PortSt) : (d.updPort p f).jobs = d.jobs := rfl
@[simp] theorem Dev.updPort_ctxLevel (p : Port) (f : PortSt → PortSt) : (d.updPort p f).ctxLevel = d.ctxLevel := rfl
@[simp] theorem Dev.updPort_ctxLast (p : Port) (f : PortSt → PortSt) : (d.updPort p f).ctxLast = d.ctxLast := rfl
@[simp] theorem Dev.updPort_ctxRate (p : Port) (f : PortSt → PortSt) : (d.updPort p f).ctxRate = d.ctxRate := rfl
@[simp] theorem Dev.updPort_ctxBurst (p : Port) (f : PortSt → PortSt) : (d.updPort p f).ctxBurst = d.ctxBurst := rfl
@[simp] theorem Dev.updPort_bwrPend (p : Port) (f : PortSt → PortSt) : (d.updPort p f).bwrPend = d.bwrPend := rfl
@[simp] theorem Dev.updPort_cyc16 (p : Port) (f : PortSt → PortSt) : (d.updPort p f).cyc16 = d.cyc16 := rfl
@[simp] theorem Dev.updPort_ticks (p : Port) (f : PortSt → PortSt) : (d.updPort p f).ticks = d.ticks := rfl
@[simp] theorem Dev.updPort_time (p : Port) (f : PortSt → PortSt) : (d.updPort p f).time = d.time := rfl
@[simp] theorem Dev.updPort_flags (p : Port) (f : PortSt → PortSt) : (d.updPort p f).flags = d.flags := rfl
@[simp] theorem Dev.updPort_queues (p : Port) (f : PortSt → PortSt) : (d.updPort p f).queues = d.queues := rfl
@[simp] theorem Dev.updPort_ctxs (p : Port) (f : PortSt → PortSt) : (d.updPort p f).ctxs = d.ctxs := rfl
@[simp] theorem Dev.updPort_owners (p : Port) (f : PortSt → PortSt) : (d.updPort p f).owners = d.owners := rfl
@[simp] theorem Dev.updPort_sems (p : Port) (f : PortSt → PortSt) : (d.updPort p f).sems = d.sems := rfl
@[simp] theorem Dev.updPort_commit (p : Port) (f : PortSt → PortSt) : (d.updPort p f).commit = d.commit := rfl
@[simp] theorem Dev.updPort_bells (p : Port) (f : PortSt → PortSt) : (d.updPort p f).bells = d.bells := rfl
@[simp] theorem Dev.updPort_units (p : Port) (f : PortSt → PortSt) : (d.updPort p f).units = d.units := rfl
@[simp] theorem Dev.updPort_flog (p : Port) (f : PortSt → PortSt) : (d.updPort p f).flog = d.flog := rfl
@[simp] theorem Dev.updPort_pm (p : Port) (f : PortSt → PortSt) : (d.updPort p f).pm = d.pm := rfl
@[simp] theorem Dev.updPort_fw (p : Port) (f : PortSt → PortSt) : (d.updPort p f).fw = d.fw := rfl
@[simp] theorem Dev.updPort_keep (p : Port) (f : PortSt → PortSt) : (d.updPort p f).keep = d.keep := rfl
@[simp] theorem Dev.updPort_cps (p : Port) (f : PortSt → PortSt) : (d.updPort p f).cps = d.cps := rfl
@[simp] theorem Dev.updPort_fab (p : Port) (f : PortSt → PortSt) : (d.updPort p f).fab = d.fab := rfl
@[simp] theorem Dev.updPort_med (p : Port) (f : PortSt → PortSt) : (d.updPort p f).med = d.med := rfl
@[simp] theorem Dev.updPort_refLost (p : Port) (f : PortSt → PortSt) : (d.updPort p f).refLost = d.refLost := rfl
@[simp] theorem Dev.updPort_tripped (p : Port) (f : PortSt → PortSt) : (d.updPort p f).tripped = d.tripped := rfl
@[simp] theorem Dev.updPort_out (p : Port) (f : PortSt → PortSt) : (d.updPort p f).out = d.out := rfl

@[simp] theorem Dev.updQueue_ctr (q : Nat) (f : Queue → Queue) : (d.updQueue q f).ctr = d.ctr := rfl
@[simp] theorem Dev.updQueue_epoch (q : Nat) (f : Queue → Queue) : (d.updQueue q f).epoch = d.epoch := rfl
@[simp] theorem Dev.updQueue_regs (q : Nat) (f : Queue → Queue) : (d.updQueue q f).regs = d.regs := rfl
@[simp] theorem Dev.updQueue_mem (q : Nat) (f : Queue → Queue) : (d.updQueue q f).mem = d.mem := rfl
@[simp] theorem Dev.updQueue_poison (q : Nat) (f : Queue → Queue) : (d.updQueue q f).poison = d.poison := rfl
@[simp] theorem Dev.updQueue_stale (q : Nat) (f : Queue → Queue) : (d.updQueue q f).stale = d.stale := rfl
@[simp] theorem Dev.updQueue_cap48 (q : Nat) (f : Queue → Queue) : (d.updQueue q f).cap48 = d.cap48 := rfl
@[simp] theorem Dev.updQueue_lost (q : Nat) (f : Queue → Queue) : (d.updQueue q f).lost = d.lost := rfl
@[simp] theorem Dev.updQueue_cores (q : Nat) (f : Queue → Queue) : (d.updQueue q f).cores = d.cores := rfl
@[simp] theorem Dev.updQueue_jobs (q : Nat) (f : Queue → Queue) : (d.updQueue q f).jobs = d.jobs := rfl
@[simp] theorem Dev.updQueue_ctxLevel (q : Nat) (f : Queue → Queue) : (d.updQueue q f).ctxLevel = d.ctxLevel := rfl
@[simp] theorem Dev.updQueue_ctxLast (q : Nat) (f : Queue → Queue) : (d.updQueue q f).ctxLast = d.ctxLast := rfl
@[simp] theorem Dev.updQueue_ctxRate (q : Nat) (f : Queue → Queue) : (d.updQueue q f).ctxRate = d.ctxRate := rfl
@[simp] theorem Dev.updQueue_ctxBurst (q : Nat) (f : Queue → Queue) : (d.updQueue q f).ctxBurst = d.ctxBurst := rfl
@[simp] theorem Dev.updQueue_bwrPend (q : Nat) (f : Queue → Queue) : (d.updQueue q f).bwrPend = d.bwrPend := rfl
@[simp] theorem Dev.updQueue_cyc16 (q : Nat) (f : Queue → Queue) : (d.updQueue q f).cyc16 = d.cyc16 := rfl
@[simp] theorem Dev.updQueue_ticks (q : Nat) (f : Queue → Queue) : (d.updQueue q f).ticks = d.ticks := rfl
@[simp] theorem Dev.updQueue_time (q : Nat) (f : Queue → Queue) : (d.updQueue q f).time = d.time := rfl
@[simp] theorem Dev.updQueue_flags (q : Nat) (f : Queue → Queue) : (d.updQueue q f).flags = d.flags := rfl
@[simp] theorem Dev.updQueue_ctxs (q : Nat) (f : Queue → Queue) : (d.updQueue q f).ctxs = d.ctxs := rfl
@[simp] theorem Dev.updQueue_owners (q : Nat) (f : Queue → Queue) : (d.updQueue q f).owners = d.owners := rfl
@[simp] theorem Dev.updQueue_sems (q : Nat) (f : Queue → Queue) : (d.updQueue q f).sems = d.sems := rfl
@[simp] theorem Dev.updQueue_ports (q : Nat) (f : Queue → Queue) : (d.updQueue q f).ports = d.ports := rfl
@[simp] theorem Dev.updQueue_commit (q : Nat) (f : Queue → Queue) : (d.updQueue q f).commit = d.commit := rfl
@[simp] theorem Dev.updQueue_bells (q : Nat) (f : Queue → Queue) : (d.updQueue q f).bells = d.bells := rfl
@[simp] theorem Dev.updQueue_units (q : Nat) (f : Queue → Queue) : (d.updQueue q f).units = d.units := rfl
@[simp] theorem Dev.updQueue_flog (q : Nat) (f : Queue → Queue) : (d.updQueue q f).flog = d.flog := rfl
@[simp] theorem Dev.updQueue_pm (q : Nat) (f : Queue → Queue) : (d.updQueue q f).pm = d.pm := rfl
@[simp] theorem Dev.updQueue_fw (q : Nat) (f : Queue → Queue) : (d.updQueue q f).fw = d.fw := rfl
@[simp] theorem Dev.updQueue_keep (q : Nat) (f : Queue → Queue) : (d.updQueue q f).keep = d.keep := rfl
@[simp] theorem Dev.updQueue_cps (q : Nat) (f : Queue → Queue) : (d.updQueue q f).cps = d.cps := rfl
@[simp] theorem Dev.updQueue_fab (q : Nat) (f : Queue → Queue) : (d.updQueue q f).fab = d.fab := rfl
@[simp] theorem Dev.updQueue_med (q : Nat) (f : Queue → Queue) : (d.updQueue q f).med = d.med := rfl
@[simp] theorem Dev.updQueue_refLost (q : Nat) (f : Queue → Queue) : (d.updQueue q f).refLost = d.refLost := rfl
@[simp] theorem Dev.updQueue_tripped (q : Nat) (f : Queue → Queue) : (d.updQueue q f).tripped = d.tripped := rfl
@[simp] theorem Dev.updQueue_out (q : Nat) (f : Queue → Queue) : (d.updQueue q f).out = d.out := rfl

@[simp] theorem Dev.updUnit_ctr (u : Nat) (f : HUnit → HUnit) : (d.updUnit u f).ctr = d.ctr := rfl
@[simp] theorem Dev.updUnit_epoch (u : Nat) (f : HUnit → HUnit) : (d.updUnit u f).epoch = d.epoch := rfl
@[simp] theorem Dev.updUnit_regs (u : Nat) (f : HUnit → HUnit) : (d.updUnit u f).regs = d.regs := rfl
@[simp] theorem Dev.updUnit_mem (u : Nat) (f : HUnit → HUnit) : (d.updUnit u f).mem = d.mem := rfl
@[simp] theorem Dev.updUnit_poison (u : Nat) (f : HUnit → HUnit) : (d.updUnit u f).poison = d.poison := rfl
@[simp] theorem Dev.updUnit_stale (u : Nat) (f : HUnit → HUnit) : (d.updUnit u f).stale = d.stale := rfl
@[simp] theorem Dev.updUnit_cap48 (u : Nat) (f : HUnit → HUnit) : (d.updUnit u f).cap48 = d.cap48 := rfl
@[simp] theorem Dev.updUnit_lost (u : Nat) (f : HUnit → HUnit) : (d.updUnit u f).lost = d.lost := rfl
@[simp] theorem Dev.updUnit_cores (u : Nat) (f : HUnit → HUnit) : (d.updUnit u f).cores = d.cores := rfl
@[simp] theorem Dev.updUnit_jobs (u : Nat) (f : HUnit → HUnit) : (d.updUnit u f).jobs = d.jobs := rfl
@[simp] theorem Dev.updUnit_ctxLevel (u : Nat) (f : HUnit → HUnit) : (d.updUnit u f).ctxLevel = d.ctxLevel := rfl
@[simp] theorem Dev.updUnit_ctxLast (u : Nat) (f : HUnit → HUnit) : (d.updUnit u f).ctxLast = d.ctxLast := rfl
@[simp] theorem Dev.updUnit_ctxRate (u : Nat) (f : HUnit → HUnit) : (d.updUnit u f).ctxRate = d.ctxRate := rfl
@[simp] theorem Dev.updUnit_ctxBurst (u : Nat) (f : HUnit → HUnit) : (d.updUnit u f).ctxBurst = d.ctxBurst := rfl
@[simp] theorem Dev.updUnit_bwrPend (u : Nat) (f : HUnit → HUnit) : (d.updUnit u f).bwrPend = d.bwrPend := rfl
@[simp] theorem Dev.updUnit_cyc16 (u : Nat) (f : HUnit → HUnit) : (d.updUnit u f).cyc16 = d.cyc16 := rfl
@[simp] theorem Dev.updUnit_ticks (u : Nat) (f : HUnit → HUnit) : (d.updUnit u f).ticks = d.ticks := rfl
@[simp] theorem Dev.updUnit_time (u : Nat) (f : HUnit → HUnit) : (d.updUnit u f).time = d.time := rfl
@[simp] theorem Dev.updUnit_flags (u : Nat) (f : HUnit → HUnit) : (d.updUnit u f).flags = d.flags := rfl
@[simp] theorem Dev.updUnit_queues (u : Nat) (f : HUnit → HUnit) : (d.updUnit u f).queues = d.queues := rfl
@[simp] theorem Dev.updUnit_ctxs (u : Nat) (f : HUnit → HUnit) : (d.updUnit u f).ctxs = d.ctxs := rfl
@[simp] theorem Dev.updUnit_owners (u : Nat) (f : HUnit → HUnit) : (d.updUnit u f).owners = d.owners := rfl
@[simp] theorem Dev.updUnit_sems (u : Nat) (f : HUnit → HUnit) : (d.updUnit u f).sems = d.sems := rfl
@[simp] theorem Dev.updUnit_ports (u : Nat) (f : HUnit → HUnit) : (d.updUnit u f).ports = d.ports := rfl
@[simp] theorem Dev.updUnit_commit (u : Nat) (f : HUnit → HUnit) : (d.updUnit u f).commit = d.commit := rfl
@[simp] theorem Dev.updUnit_bells (u : Nat) (f : HUnit → HUnit) : (d.updUnit u f).bells = d.bells := rfl
@[simp] theorem Dev.updUnit_flog (u : Nat) (f : HUnit → HUnit) : (d.updUnit u f).flog = d.flog := rfl
@[simp] theorem Dev.updUnit_pm (u : Nat) (f : HUnit → HUnit) : (d.updUnit u f).pm = d.pm := rfl
@[simp] theorem Dev.updUnit_fw (u : Nat) (f : HUnit → HUnit) : (d.updUnit u f).fw = d.fw := rfl
@[simp] theorem Dev.updUnit_keep (u : Nat) (f : HUnit → HUnit) : (d.updUnit u f).keep = d.keep := rfl
@[simp] theorem Dev.updUnit_cps (u : Nat) (f : HUnit → HUnit) : (d.updUnit u f).cps = d.cps := rfl
@[simp] theorem Dev.updUnit_fab (u : Nat) (f : HUnit → HUnit) : (d.updUnit u f).fab = d.fab := rfl
@[simp] theorem Dev.updUnit_med (u : Nat) (f : HUnit → HUnit) : (d.updUnit u f).med = d.med := rfl
@[simp] theorem Dev.updUnit_refLost (u : Nat) (f : HUnit → HUnit) : (d.updUnit u f).refLost = d.refLost := rfl
@[simp] theorem Dev.updUnit_tripped (u : Nat) (f : HUnit → HUnit) : (d.updUnit u f).tripped = d.tripped := rfl
@[simp] theorem Dev.updUnit_out (u : Nat) (f : HUnit → HUnit) : (d.updUnit u f).out = d.out := rfl

@[simp] theorem Dev.setOwner_ctr (k i : Nat) (p : Port) : (d.setOwner k i p).ctr = d.ctr := rfl
@[simp] theorem Dev.setOwner_epoch (k i : Nat) (p : Port) : (d.setOwner k i p).epoch = d.epoch := rfl
@[simp] theorem Dev.setOwner_regs (k i : Nat) (p : Port) : (d.setOwner k i p).regs = d.regs := rfl
@[simp] theorem Dev.setOwner_mem (k i : Nat) (p : Port) : (d.setOwner k i p).mem = d.mem := rfl
@[simp] theorem Dev.setOwner_poison (k i : Nat) (p : Port) : (d.setOwner k i p).poison = d.poison := rfl
@[simp] theorem Dev.setOwner_stale (k i : Nat) (p : Port) : (d.setOwner k i p).stale = d.stale := rfl
@[simp] theorem Dev.setOwner_cap48 (k i : Nat) (p : Port) : (d.setOwner k i p).cap48 = d.cap48 := rfl
@[simp] theorem Dev.setOwner_lost (k i : Nat) (p : Port) : (d.setOwner k i p).lost = d.lost := rfl
@[simp] theorem Dev.setOwner_cores (k i : Nat) (p : Port) : (d.setOwner k i p).cores = d.cores := rfl
@[simp] theorem Dev.setOwner_jobs (k i : Nat) (p : Port) : (d.setOwner k i p).jobs = d.jobs := rfl
@[simp] theorem Dev.setOwner_ctxLevel (k i : Nat) (p : Port) : (d.setOwner k i p).ctxLevel = d.ctxLevel := rfl
@[simp] theorem Dev.setOwner_ctxLast (k i : Nat) (p : Port) : (d.setOwner k i p).ctxLast = d.ctxLast := rfl
@[simp] theorem Dev.setOwner_ctxRate (k i : Nat) (p : Port) : (d.setOwner k i p).ctxRate = d.ctxRate := rfl
@[simp] theorem Dev.setOwner_ctxBurst (k i : Nat) (p : Port) : (d.setOwner k i p).ctxBurst = d.ctxBurst := rfl
@[simp] theorem Dev.setOwner_bwrPend (k i : Nat) (p : Port) : (d.setOwner k i p).bwrPend = d.bwrPend := rfl
@[simp] theorem Dev.setOwner_cyc16 (k i : Nat) (p : Port) : (d.setOwner k i p).cyc16 = d.cyc16 := rfl
@[simp] theorem Dev.setOwner_ticks (k i : Nat) (p : Port) : (d.setOwner k i p).ticks = d.ticks := rfl
@[simp] theorem Dev.setOwner_time (k i : Nat) (p : Port) : (d.setOwner k i p).time = d.time := rfl
@[simp] theorem Dev.setOwner_flags (k i : Nat) (p : Port) : (d.setOwner k i p).flags = d.flags := rfl
@[simp] theorem Dev.setOwner_queues (k i : Nat) (p : Port) : (d.setOwner k i p).queues = d.queues := rfl
@[simp] theorem Dev.setOwner_ctxs (k i : Nat) (p : Port) : (d.setOwner k i p).ctxs = d.ctxs := rfl
@[simp] theorem Dev.setOwner_sems (k i : Nat) (p : Port) : (d.setOwner k i p).sems = d.sems := rfl
@[simp] theorem Dev.setOwner_ports (k i : Nat) (p : Port) : (d.setOwner k i p).ports = d.ports := rfl
@[simp] theorem Dev.setOwner_commit (k i : Nat) (p : Port) : (d.setOwner k i p).commit = d.commit := rfl
@[simp] theorem Dev.setOwner_bells (k i : Nat) (p : Port) : (d.setOwner k i p).bells = d.bells := rfl
@[simp] theorem Dev.setOwner_units (k i : Nat) (p : Port) : (d.setOwner k i p).units = d.units := rfl
@[simp] theorem Dev.setOwner_flog (k i : Nat) (p : Port) : (d.setOwner k i p).flog = d.flog := rfl
@[simp] theorem Dev.setOwner_pm (k i : Nat) (p : Port) : (d.setOwner k i p).pm = d.pm := rfl
@[simp] theorem Dev.setOwner_fw (k i : Nat) (p : Port) : (d.setOwner k i p).fw = d.fw := rfl
@[simp] theorem Dev.setOwner_keep (k i : Nat) (p : Port) : (d.setOwner k i p).keep = d.keep := rfl
@[simp] theorem Dev.setOwner_cps (k i : Nat) (p : Port) : (d.setOwner k i p).cps = d.cps := rfl
@[simp] theorem Dev.setOwner_fab (k i : Nat) (p : Port) : (d.setOwner k i p).fab = d.fab := rfl
@[simp] theorem Dev.setOwner_med (k i : Nat) (p : Port) : (d.setOwner k i p).med = d.med := rfl
@[simp] theorem Dev.setOwner_refLost (k i : Nat) (p : Port) : (d.setOwner k i p).refLost = d.refLost := rfl
@[simp] theorem Dev.setOwner_tripped (k i : Nat) (p : Port) : (d.setOwner k i p).tripped = d.tripped := rfl
@[simp] theorem Dev.setOwner_out (k i : Nat) (p : Port) : (d.setOwner k i p).out = d.out := rfl

@[simp] theorem Dev.putByte_ctr (a : Nat) (b : Byte) : (d.putByte a b).ctr = d.ctr := rfl
@[simp] theorem Dev.putByte_epoch (a : Nat) (b : Byte) : (d.putByte a b).epoch = d.epoch := rfl
@[simp] theorem Dev.putByte_regs (a : Nat) (b : Byte) : (d.putByte a b).regs = d.regs := rfl
@[simp] theorem Dev.putByte_poison (a : Nat) (b : Byte) : (d.putByte a b).poison = d.poison := rfl
@[simp] theorem Dev.putByte_stale (a : Nat) (b : Byte) : (d.putByte a b).stale = d.stale := rfl
@[simp] theorem Dev.putByte_cap48 (a : Nat) (b : Byte) : (d.putByte a b).cap48 = d.cap48 := rfl
@[simp] theorem Dev.putByte_lost (a : Nat) (b : Byte) : (d.putByte a b).lost = d.lost := rfl
@[simp] theorem Dev.putByte_cores (a : Nat) (b : Byte) : (d.putByte a b).cores = d.cores := rfl
@[simp] theorem Dev.putByte_jobs (a : Nat) (b : Byte) : (d.putByte a b).jobs = d.jobs := rfl
@[simp] theorem Dev.putByte_ctxLevel (a : Nat) (b : Byte) : (d.putByte a b).ctxLevel = d.ctxLevel := rfl
@[simp] theorem Dev.putByte_ctxLast (a : Nat) (b : Byte) : (d.putByte a b).ctxLast = d.ctxLast := rfl
@[simp] theorem Dev.putByte_ctxRate (a : Nat) (b : Byte) : (d.putByte a b).ctxRate = d.ctxRate := rfl
@[simp] theorem Dev.putByte_ctxBurst (a : Nat) (b : Byte) : (d.putByte a b).ctxBurst = d.ctxBurst := rfl
@[simp] theorem Dev.putByte_bwrPend (a : Nat) (b : Byte) : (d.putByte a b).bwrPend = d.bwrPend := rfl
@[simp] theorem Dev.putByte_cyc16 (a : Nat) (b : Byte) : (d.putByte a b).cyc16 = d.cyc16 := rfl
@[simp] theorem Dev.putByte_ticks (a : Nat) (b : Byte) : (d.putByte a b).ticks = d.ticks := rfl
@[simp] theorem Dev.putByte_time (a : Nat) (b : Byte) : (d.putByte a b).time = d.time := rfl
@[simp] theorem Dev.putByte_flags (a : Nat) (b : Byte) : (d.putByte a b).flags = d.flags := rfl
@[simp] theorem Dev.putByte_queues (a : Nat) (b : Byte) : (d.putByte a b).queues = d.queues := rfl
@[simp] theorem Dev.putByte_ctxs (a : Nat) (b : Byte) : (d.putByte a b).ctxs = d.ctxs := rfl
@[simp] theorem Dev.putByte_owners (a : Nat) (b : Byte) : (d.putByte a b).owners = d.owners := rfl
@[simp] theorem Dev.putByte_sems (a : Nat) (b : Byte) : (d.putByte a b).sems = d.sems := rfl
@[simp] theorem Dev.putByte_ports (a : Nat) (b : Byte) : (d.putByte a b).ports = d.ports := rfl
@[simp] theorem Dev.putByte_commit (a : Nat) (b : Byte) : (d.putByte a b).commit = d.commit := rfl
@[simp] theorem Dev.putByte_bells (a : Nat) (b : Byte) : (d.putByte a b).bells = d.bells := rfl
@[simp] theorem Dev.putByte_units (a : Nat) (b : Byte) : (d.putByte a b).units = d.units := rfl
@[simp] theorem Dev.putByte_flog (a : Nat) (b : Byte) : (d.putByte a b).flog = d.flog := rfl
@[simp] theorem Dev.putByte_pm (a : Nat) (b : Byte) : (d.putByte a b).pm = d.pm := rfl
@[simp] theorem Dev.putByte_fw (a : Nat) (b : Byte) : (d.putByte a b).fw = d.fw := rfl
@[simp] theorem Dev.putByte_keep (a : Nat) (b : Byte) : (d.putByte a b).keep = d.keep := rfl
@[simp] theorem Dev.putByte_cps (a : Nat) (b : Byte) : (d.putByte a b).cps = d.cps := rfl
@[simp] theorem Dev.putByte_fab (a : Nat) (b : Byte) : (d.putByte a b).fab = d.fab := rfl
@[simp] theorem Dev.putByte_med (a : Nat) (b : Byte) : (d.putByte a b).med = d.med := rfl
@[simp] theorem Dev.putByte_refLost (a : Nat) (b : Byte) : (d.putByte a b).refLost = d.refLost := rfl
@[simp] theorem Dev.putByte_tripped (a : Nat) (b : Byte) : (d.putByte a b).tripped = d.tripped := rfl
@[simp] theorem Dev.putByte_out (a : Nat) (b : Byte) : (d.putByte a b).out = d.out := rfl

@[simp] theorem Dev.releaseIf_ctr (p : Unseen → Bool) : (d.releaseIf p).ctr = d.ctr := rfl
@[simp] theorem Dev.releaseIf_epoch (p : Unseen → Bool) : (d.releaseIf p).epoch = d.epoch := rfl
@[simp] theorem Dev.releaseIf_regs (p : Unseen → Bool) : (d.releaseIf p).regs = d.regs := rfl
@[simp] theorem Dev.releaseIf_mem (p : Unseen → Bool) : (d.releaseIf p).mem = d.mem := rfl
@[simp] theorem Dev.releaseIf_poison (p : Unseen → Bool) : (d.releaseIf p).poison = d.poison := rfl
@[simp] theorem Dev.releaseIf_cap48 (p : Unseen → Bool) : (d.releaseIf p).cap48 = d.cap48 := rfl
@[simp] theorem Dev.releaseIf_lost (p : Unseen → Bool) : (d.releaseIf p).lost = d.lost := rfl
@[simp] theorem Dev.releaseIf_cores (p : Unseen → Bool) : (d.releaseIf p).cores = d.cores := rfl
@[simp] theorem Dev.releaseIf_jobs (p : Unseen → Bool) : (d.releaseIf p).jobs = d.jobs := rfl
@[simp] theorem Dev.releaseIf_ctxLevel (p : Unseen → Bool) : (d.releaseIf p).ctxLevel = d.ctxLevel := rfl
@[simp] theorem Dev.releaseIf_ctxLast (p : Unseen → Bool) : (d.releaseIf p).ctxLast = d.ctxLast := rfl
@[simp] theorem Dev.releaseIf_ctxRate (p : Unseen → Bool) : (d.releaseIf p).ctxRate = d.ctxRate := rfl
@[simp] theorem Dev.releaseIf_ctxBurst (p : Unseen → Bool) : (d.releaseIf p).ctxBurst = d.ctxBurst := rfl
@[simp] theorem Dev.releaseIf_bwrPend (p : Unseen → Bool) : (d.releaseIf p).bwrPend = d.bwrPend := rfl
@[simp] theorem Dev.releaseIf_cyc16 (p : Unseen → Bool) : (d.releaseIf p).cyc16 = d.cyc16 := rfl
@[simp] theorem Dev.releaseIf_ticks (p : Unseen → Bool) : (d.releaseIf p).ticks = d.ticks := rfl
@[simp] theorem Dev.releaseIf_time (p : Unseen → Bool) : (d.releaseIf p).time = d.time := rfl
@[simp] theorem Dev.releaseIf_flags (p : Unseen → Bool) : (d.releaseIf p).flags = d.flags := rfl
@[simp] theorem Dev.releaseIf_queues (p : Unseen → Bool) : (d.releaseIf p).queues = d.queues := rfl
@[simp] theorem Dev.releaseIf_ctxs (p : Unseen → Bool) : (d.releaseIf p).ctxs = d.ctxs := rfl
@[simp] theorem Dev.releaseIf_owners (p : Unseen → Bool) : (d.releaseIf p).owners = d.owners := rfl
@[simp] theorem Dev.releaseIf_sems (p : Unseen → Bool) : (d.releaseIf p).sems = d.sems := rfl
@[simp] theorem Dev.releaseIf_ports (p : Unseen → Bool) : (d.releaseIf p).ports = d.ports := rfl
@[simp] theorem Dev.releaseIf_commit (p : Unseen → Bool) : (d.releaseIf p).commit = d.commit := rfl
@[simp] theorem Dev.releaseIf_bells (p : Unseen → Bool) : (d.releaseIf p).bells = d.bells := rfl
@[simp] theorem Dev.releaseIf_units (p : Unseen → Bool) : (d.releaseIf p).units = d.units := rfl
@[simp] theorem Dev.releaseIf_flog (p : Unseen → Bool) : (d.releaseIf p).flog = d.flog := rfl
@[simp] theorem Dev.releaseIf_pm (p : Unseen → Bool) : (d.releaseIf p).pm = d.pm := rfl
@[simp] theorem Dev.releaseIf_fw (p : Unseen → Bool) : (d.releaseIf p).fw = d.fw := rfl
@[simp] theorem Dev.releaseIf_keep (p : Unseen → Bool) : (d.releaseIf p).keep = d.keep := rfl
@[simp] theorem Dev.releaseIf_cps (p : Unseen → Bool) : (d.releaseIf p).cps = d.cps := rfl
@[simp] theorem Dev.releaseIf_fab (p : Unseen → Bool) : (d.releaseIf p).fab = d.fab := rfl
@[simp] theorem Dev.releaseIf_med (p : Unseen → Bool) : (d.releaseIf p).med = d.med := rfl
@[simp] theorem Dev.releaseIf_refLost (p : Unseen → Bool) : (d.releaseIf p).refLost = d.refLost := rfl
@[simp] theorem Dev.releaseIf_tripped (p : Unseen → Bool) : (d.releaseIf p).tripped = d.tripped := rfl
@[simp] theorem Dev.releaseIf_out (p : Unseen → Bool) : (d.releaseIf p).out = d.out := rfl

@[simp] theorem Dev.lose_ctr (a n : Nat) : (d.lose a n).ctr = d.ctr := rfl
@[simp] theorem Dev.lose_epoch (a n : Nat) : (d.lose a n).epoch = d.epoch := rfl
@[simp] theorem Dev.lose_regs (a n : Nat) : (d.lose a n).regs = d.regs := rfl
@[simp] theorem Dev.lose_poison (a n : Nat) : (d.lose a n).poison = d.poison := rfl
@[simp] theorem Dev.lose_cap48 (a n : Nat) : (d.lose a n).cap48 = d.cap48 := rfl
@[simp] theorem Dev.lose_cores (a n : Nat) : (d.lose a n).cores = d.cores := rfl
@[simp] theorem Dev.lose_jobs (a n : Nat) : (d.lose a n).jobs = d.jobs := rfl
@[simp] theorem Dev.lose_ctxLevel (a n : Nat) : (d.lose a n).ctxLevel = d.ctxLevel := rfl
@[simp] theorem Dev.lose_ctxLast (a n : Nat) : (d.lose a n).ctxLast = d.ctxLast := rfl
@[simp] theorem Dev.lose_ctxRate (a n : Nat) : (d.lose a n).ctxRate = d.ctxRate := rfl
@[simp] theorem Dev.lose_ctxBurst (a n : Nat) : (d.lose a n).ctxBurst = d.ctxBurst := rfl
@[simp] theorem Dev.lose_bwrPend (a n : Nat) : (d.lose a n).bwrPend = d.bwrPend := rfl
@[simp] theorem Dev.lose_cyc16 (a n : Nat) : (d.lose a n).cyc16 = d.cyc16 := rfl
@[simp] theorem Dev.lose_ticks (a n : Nat) : (d.lose a n).ticks = d.ticks := rfl
@[simp] theorem Dev.lose_time (a n : Nat) : (d.lose a n).time = d.time := rfl
@[simp] theorem Dev.lose_flags (a n : Nat) : (d.lose a n).flags = d.flags := rfl
@[simp] theorem Dev.lose_queues (a n : Nat) : (d.lose a n).queues = d.queues := rfl
@[simp] theorem Dev.lose_ctxs (a n : Nat) : (d.lose a n).ctxs = d.ctxs := rfl
@[simp] theorem Dev.lose_owners (a n : Nat) : (d.lose a n).owners = d.owners := rfl
@[simp] theorem Dev.lose_sems (a n : Nat) : (d.lose a n).sems = d.sems := rfl
@[simp] theorem Dev.lose_ports (a n : Nat) : (d.lose a n).ports = d.ports := rfl
@[simp] theorem Dev.lose_commit (a n : Nat) : (d.lose a n).commit = d.commit := rfl
@[simp] theorem Dev.lose_bells (a n : Nat) : (d.lose a n).bells = d.bells := rfl
@[simp] theorem Dev.lose_units (a n : Nat) : (d.lose a n).units = d.units := rfl
@[simp] theorem Dev.lose_flog (a n : Nat) : (d.lose a n).flog = d.flog := rfl
@[simp] theorem Dev.lose_pm (a n : Nat) : (d.lose a n).pm = d.pm := rfl
@[simp] theorem Dev.lose_fw (a n : Nat) : (d.lose a n).fw = d.fw := rfl
@[simp] theorem Dev.lose_keep (a n : Nat) : (d.lose a n).keep = d.keep := rfl
@[simp] theorem Dev.lose_cps (a n : Nat) : (d.lose a n).cps = d.cps := rfl
@[simp] theorem Dev.lose_fab (a n : Nat) : (d.lose a n).fab = d.fab := rfl
@[simp] theorem Dev.lose_med (a n : Nat) : (d.lose a n).med = d.med := rfl
@[simp] theorem Dev.lose_refLost (a n : Nat) : (d.lose a n).refLost = d.refLost := rfl
@[simp] theorem Dev.lose_tripped (a n : Nat) : (d.lose a n).tripped = d.tripped := rfl
@[simp] theorem Dev.lose_out (a n : Nat) : (d.lose a n).out = d.out := rfl

@[simp] theorem Dev.release_ctr (g : Agent) : (d.release g).ctr = d.ctr := rfl
@[simp] theorem Dev.release_epoch (g : Agent) : (d.release g).epoch = d.epoch := rfl
@[simp] theorem Dev.release_regs (g : Agent) : (d.release g).regs = d.regs := rfl
@[simp] theorem Dev.release_mem (g : Agent) : (d.release g).mem = d.mem := rfl
@[simp] theorem Dev.release_poison (g : Agent) : (d.release g).poison = d.poison := rfl
@[simp] theorem Dev.release_cap48 (g : Agent) : (d.release g).cap48 = d.cap48 := rfl
@[simp] theorem Dev.release_lost (g : Agent) : (d.release g).lost = d.lost := rfl
@[simp] theorem Dev.release_cores (g : Agent) : (d.release g).cores = d.cores := rfl
@[simp] theorem Dev.release_jobs (g : Agent) : (d.release g).jobs = d.jobs := rfl
@[simp] theorem Dev.release_ctxLevel (g : Agent) : (d.release g).ctxLevel = d.ctxLevel := rfl
@[simp] theorem Dev.release_ctxLast (g : Agent) : (d.release g).ctxLast = d.ctxLast := rfl
@[simp] theorem Dev.release_ctxRate (g : Agent) : (d.release g).ctxRate = d.ctxRate := rfl
@[simp] theorem Dev.release_ctxBurst (g : Agent) : (d.release g).ctxBurst = d.ctxBurst := rfl
@[simp] theorem Dev.release_bwrPend (g : Agent) : (d.release g).bwrPend = d.bwrPend := rfl
@[simp] theorem Dev.release_cyc16 (g : Agent) : (d.release g).cyc16 = d.cyc16 := rfl
@[simp] theorem Dev.release_ticks (g : Agent) : (d.release g).ticks = d.ticks := rfl
@[simp] theorem Dev.release_time (g : Agent) : (d.release g).time = d.time := rfl
@[simp] theorem Dev.release_flags (g : Agent) : (d.release g).flags = d.flags := rfl
@[simp] theorem Dev.release_queues (g : Agent) : (d.release g).queues = d.queues := rfl
@[simp] theorem Dev.release_ctxs (g : Agent) : (d.release g).ctxs = d.ctxs := rfl
@[simp] theorem Dev.release_owners (g : Agent) : (d.release g).owners = d.owners := rfl
@[simp] theorem Dev.release_sems (g : Agent) : (d.release g).sems = d.sems := rfl
@[simp] theorem Dev.release_ports (g : Agent) : (d.release g).ports = d.ports := rfl
@[simp] theorem Dev.release_commit (g : Agent) : (d.release g).commit = d.commit := rfl
@[simp] theorem Dev.release_bells (g : Agent) : (d.release g).bells = d.bells := rfl
@[simp] theorem Dev.release_units (g : Agent) : (d.release g).units = d.units := rfl
@[simp] theorem Dev.release_flog (g : Agent) : (d.release g).flog = d.flog := rfl
@[simp] theorem Dev.release_pm (g : Agent) : (d.release g).pm = d.pm := rfl
@[simp] theorem Dev.release_fw (g : Agent) : (d.release g).fw = d.fw := rfl
@[simp] theorem Dev.release_keep (g : Agent) : (d.release g).keep = d.keep := rfl
@[simp] theorem Dev.release_cps (g : Agent) : (d.release g).cps = d.cps := rfl
@[simp] theorem Dev.release_fab (g : Agent) : (d.release g).fab = d.fab := rfl
@[simp] theorem Dev.release_med (g : Agent) : (d.release g).med = d.med := rfl
@[simp] theorem Dev.release_refLost (g : Agent) : (d.release g).refLost = d.refLost := rfl
@[simp] theorem Dev.release_tripped (g : Agent) : (d.release g).tripped = d.tripped := rfl
@[simp] theorem Dev.release_out (g : Agent) : (d.release g).out = d.out := rfl

@[simp] theorem Dev.cleanPoison_ctr (a n : Nat) : (d.cleanPoison a n).ctr = d.ctr := rfl
@[simp] theorem Dev.cleanPoison_epoch (a n : Nat) : (d.cleanPoison a n).epoch = d.epoch := rfl
@[simp] theorem Dev.cleanPoison_regs (a n : Nat) : (d.cleanPoison a n).regs = d.regs := rfl
@[simp] theorem Dev.cleanPoison_mem (a n : Nat) : (d.cleanPoison a n).mem = d.mem := rfl
@[simp] theorem Dev.cleanPoison_stale (a n : Nat) : (d.cleanPoison a n).stale = d.stale := rfl
@[simp] theorem Dev.cleanPoison_cap48 (a n : Nat) : (d.cleanPoison a n).cap48 = d.cap48 := rfl
@[simp] theorem Dev.cleanPoison_lost (a n : Nat) : (d.cleanPoison a n).lost = d.lost := rfl
@[simp] theorem Dev.cleanPoison_cores (a n : Nat) : (d.cleanPoison a n).cores = d.cores := rfl
@[simp] theorem Dev.cleanPoison_jobs (a n : Nat) : (d.cleanPoison a n).jobs = d.jobs := rfl
@[simp] theorem Dev.cleanPoison_ctxLevel (a n : Nat) : (d.cleanPoison a n).ctxLevel = d.ctxLevel := rfl
@[simp] theorem Dev.cleanPoison_ctxLast (a n : Nat) : (d.cleanPoison a n).ctxLast = d.ctxLast := rfl
@[simp] theorem Dev.cleanPoison_ctxRate (a n : Nat) : (d.cleanPoison a n).ctxRate = d.ctxRate := rfl
@[simp] theorem Dev.cleanPoison_ctxBurst (a n : Nat) : (d.cleanPoison a n).ctxBurst = d.ctxBurst := rfl
@[simp] theorem Dev.cleanPoison_bwrPend (a n : Nat) : (d.cleanPoison a n).bwrPend = d.bwrPend := rfl
@[simp] theorem Dev.cleanPoison_cyc16 (a n : Nat) : (d.cleanPoison a n).cyc16 = d.cyc16 := rfl
@[simp] theorem Dev.cleanPoison_ticks (a n : Nat) : (d.cleanPoison a n).ticks = d.ticks := rfl
@[simp] theorem Dev.cleanPoison_time (a n : Nat) : (d.cleanPoison a n).time = d.time := rfl
@[simp] theorem Dev.cleanPoison_flags (a n : Nat) : (d.cleanPoison a n).flags = d.flags := rfl
@[simp] theorem Dev.cleanPoison_queues (a n : Nat) : (d.cleanPoison a n).queues = d.queues := rfl
@[simp] theorem Dev.cleanPoison_ctxs (a n : Nat) : (d.cleanPoison a n).ctxs = d.ctxs := rfl
@[simp] theorem Dev.cleanPoison_owners (a n : Nat) : (d.cleanPoison a n).owners = d.owners := rfl
@[simp] theorem Dev.cleanPoison_sems (a n : Nat) : (d.cleanPoison a n).sems = d.sems := rfl
@[simp] theorem Dev.cleanPoison_ports (a n : Nat) : (d.cleanPoison a n).ports = d.ports := rfl
@[simp] theorem Dev.cleanPoison_commit (a n : Nat) : (d.cleanPoison a n).commit = d.commit := rfl
@[simp] theorem Dev.cleanPoison_bells (a n : Nat) : (d.cleanPoison a n).bells = d.bells := rfl
@[simp] theorem Dev.cleanPoison_units (a n : Nat) : (d.cleanPoison a n).units = d.units := rfl
@[simp] theorem Dev.cleanPoison_flog (a n : Nat) : (d.cleanPoison a n).flog = d.flog := rfl
@[simp] theorem Dev.cleanPoison_pm (a n : Nat) : (d.cleanPoison a n).pm = d.pm := rfl
@[simp] theorem Dev.cleanPoison_fw (a n : Nat) : (d.cleanPoison a n).fw = d.fw := rfl
@[simp] theorem Dev.cleanPoison_keep (a n : Nat) : (d.cleanPoison a n).keep = d.keep := rfl
@[simp] theorem Dev.cleanPoison_cps (a n : Nat) : (d.cleanPoison a n).cps = d.cps := rfl
@[simp] theorem Dev.cleanPoison_fab (a n : Nat) : (d.cleanPoison a n).fab = d.fab := rfl
@[simp] theorem Dev.cleanPoison_med (a n : Nat) : (d.cleanPoison a n).med = d.med := rfl
@[simp] theorem Dev.cleanPoison_refLost (a n : Nat) : (d.cleanPoison a n).refLost = d.refLost := rfl
@[simp] theorem Dev.cleanPoison_tripped (a n : Nat) : (d.cleanPoison a n).tripped = d.tripped := rfl
@[simp] theorem Dev.cleanPoison_out (a n : Nat) : (d.cleanPoison a n).out = d.out := rfl

@[simp] theorem Dev.putFlag_ctr (n : Nat) (v : Bool) : (d.putFlag n v).ctr = d.ctr := rfl
@[simp] theorem Dev.putFlag_epoch (n : Nat) (v : Bool) : (d.putFlag n v).epoch = d.epoch := rfl
@[simp] theorem Dev.putFlag_regs (n : Nat) (v : Bool) : (d.putFlag n v).regs = d.regs := rfl
@[simp] theorem Dev.putFlag_mem (n : Nat) (v : Bool) : (d.putFlag n v).mem = d.mem := rfl
@[simp] theorem Dev.putFlag_poison (n : Nat) (v : Bool) : (d.putFlag n v).poison = d.poison := rfl
@[simp] theorem Dev.putFlag_stale (n : Nat) (v : Bool) : (d.putFlag n v).stale = d.stale := rfl
@[simp] theorem Dev.putFlag_cap48 (n : Nat) (v : Bool) : (d.putFlag n v).cap48 = d.cap48 := rfl
@[simp] theorem Dev.putFlag_lost (n : Nat) (v : Bool) : (d.putFlag n v).lost = d.lost := rfl
@[simp] theorem Dev.putFlag_cores (n : Nat) (v : Bool) : (d.putFlag n v).cores = d.cores := rfl
@[simp] theorem Dev.putFlag_jobs (n : Nat) (v : Bool) : (d.putFlag n v).jobs = d.jobs := rfl
@[simp] theorem Dev.putFlag_ctxLevel (n : Nat) (v : Bool) : (d.putFlag n v).ctxLevel = d.ctxLevel := rfl
@[simp] theorem Dev.putFlag_ctxLast (n : Nat) (v : Bool) : (d.putFlag n v).ctxLast = d.ctxLast := rfl
@[simp] theorem Dev.putFlag_ctxRate (n : Nat) (v : Bool) : (d.putFlag n v).ctxRate = d.ctxRate := rfl
@[simp] theorem Dev.putFlag_ctxBurst (n : Nat) (v : Bool) : (d.putFlag n v).ctxBurst = d.ctxBurst := rfl
@[simp] theorem Dev.putFlag_bwrPend (n : Nat) (v : Bool) : (d.putFlag n v).bwrPend = d.bwrPend := rfl
@[simp] theorem Dev.putFlag_cyc16 (n : Nat) (v : Bool) : (d.putFlag n v).cyc16 = d.cyc16 := rfl
@[simp] theorem Dev.putFlag_ticks (n : Nat) (v : Bool) : (d.putFlag n v).ticks = d.ticks := rfl
@[simp] theorem Dev.putFlag_time (n : Nat) (v : Bool) : (d.putFlag n v).time = d.time := rfl
@[simp] theorem Dev.putFlag_queues (n : Nat) (v : Bool) : (d.putFlag n v).queues = d.queues := rfl
@[simp] theorem Dev.putFlag_ctxs (n : Nat) (v : Bool) : (d.putFlag n v).ctxs = d.ctxs := rfl
@[simp] theorem Dev.putFlag_owners (n : Nat) (v : Bool) : (d.putFlag n v).owners = d.owners := rfl
@[simp] theorem Dev.putFlag_sems (n : Nat) (v : Bool) : (d.putFlag n v).sems = d.sems := rfl
@[simp] theorem Dev.putFlag_ports (n : Nat) (v : Bool) : (d.putFlag n v).ports = d.ports := rfl
@[simp] theorem Dev.putFlag_commit (n : Nat) (v : Bool) : (d.putFlag n v).commit = d.commit := rfl
@[simp] theorem Dev.putFlag_bells (n : Nat) (v : Bool) : (d.putFlag n v).bells = d.bells := rfl
@[simp] theorem Dev.putFlag_units (n : Nat) (v : Bool) : (d.putFlag n v).units = d.units := rfl
@[simp] theorem Dev.putFlag_flog (n : Nat) (v : Bool) : (d.putFlag n v).flog = d.flog := rfl
@[simp] theorem Dev.putFlag_pm (n : Nat) (v : Bool) : (d.putFlag n v).pm = d.pm := rfl
@[simp] theorem Dev.putFlag_fw (n : Nat) (v : Bool) : (d.putFlag n v).fw = d.fw := rfl
@[simp] theorem Dev.putFlag_keep (n : Nat) (v : Bool) : (d.putFlag n v).keep = d.keep := rfl
@[simp] theorem Dev.putFlag_cps (n : Nat) (v : Bool) : (d.putFlag n v).cps = d.cps := rfl
@[simp] theorem Dev.putFlag_fab (n : Nat) (v : Bool) : (d.putFlag n v).fab = d.fab := rfl
@[simp] theorem Dev.putFlag_med (n : Nat) (v : Bool) : (d.putFlag n v).med = d.med := rfl
@[simp] theorem Dev.putFlag_refLost (n : Nat) (v : Bool) : (d.putFlag n v).refLost = d.refLost := rfl
@[simp] theorem Dev.putFlag_tripped (n : Nat) (v : Bool) : (d.putFlag n v).tripped = d.tripped := rfl
@[simp] theorem Dev.putFlag_out (n : Nat) (v : Bool) : (d.putFlag n v).out = d.out := rfl

@[simp] theorem Dev.setFlag_ctr (n : Nat) : (d.setFlag n).ctr = d.ctr := rfl
@[simp] theorem Dev.setFlag_epoch (n : Nat) : (d.setFlag n).epoch = d.epoch := rfl
@[simp] theorem Dev.setFlag_regs (n : Nat) : (d.setFlag n).regs = d.regs := rfl
@[simp] theorem Dev.setFlag_mem (n : Nat) : (d.setFlag n).mem = d.mem := rfl
@[simp] theorem Dev.setFlag_poison (n : Nat) : (d.setFlag n).poison = d.poison := rfl
@[simp] theorem Dev.setFlag_stale (n : Nat) : (d.setFlag n).stale = d.stale := rfl
@[simp] theorem Dev.setFlag_cap48 (n : Nat) : (d.setFlag n).cap48 = d.cap48 := rfl
@[simp] theorem Dev.setFlag_lost (n : Nat) : (d.setFlag n).lost = d.lost := rfl
@[simp] theorem Dev.setFlag_cores (n : Nat) : (d.setFlag n).cores = d.cores := rfl
@[simp] theorem Dev.setFlag_jobs (n : Nat) : (d.setFlag n).jobs = d.jobs := rfl
@[simp] theorem Dev.setFlag_ctxLevel (n : Nat) : (d.setFlag n).ctxLevel = d.ctxLevel := rfl
@[simp] theorem Dev.setFlag_ctxLast (n : Nat) : (d.setFlag n).ctxLast = d.ctxLast := rfl
@[simp] theorem Dev.setFlag_ctxRate (n : Nat) : (d.setFlag n).ctxRate = d.ctxRate := rfl
@[simp] theorem Dev.setFlag_ctxBurst (n : Nat) : (d.setFlag n).ctxBurst = d.ctxBurst := rfl
@[simp] theorem Dev.setFlag_bwrPend (n : Nat) : (d.setFlag n).bwrPend = d.bwrPend := rfl
@[simp] theorem Dev.setFlag_cyc16 (n : Nat) : (d.setFlag n).cyc16 = d.cyc16 := rfl
@[simp] theorem Dev.setFlag_ticks (n : Nat) : (d.setFlag n).ticks = d.ticks := rfl
@[simp] theorem Dev.setFlag_time (n : Nat) : (d.setFlag n).time = d.time := rfl
@[simp] theorem Dev.setFlag_queues (n : Nat) : (d.setFlag n).queues = d.queues := rfl
@[simp] theorem Dev.setFlag_ctxs (n : Nat) : (d.setFlag n).ctxs = d.ctxs := rfl
@[simp] theorem Dev.setFlag_owners (n : Nat) : (d.setFlag n).owners = d.owners := rfl
@[simp] theorem Dev.setFlag_sems (n : Nat) : (d.setFlag n).sems = d.sems := rfl
@[simp] theorem Dev.setFlag_ports (n : Nat) : (d.setFlag n).ports = d.ports := rfl
@[simp] theorem Dev.setFlag_commit (n : Nat) : (d.setFlag n).commit = d.commit := rfl
@[simp] theorem Dev.setFlag_bells (n : Nat) : (d.setFlag n).bells = d.bells := rfl
@[simp] theorem Dev.setFlag_units (n : Nat) : (d.setFlag n).units = d.units := rfl
@[simp] theorem Dev.setFlag_flog (n : Nat) : (d.setFlag n).flog = d.flog := rfl
@[simp] theorem Dev.setFlag_pm (n : Nat) : (d.setFlag n).pm = d.pm := rfl
@[simp] theorem Dev.setFlag_fw (n : Nat) : (d.setFlag n).fw = d.fw := rfl
@[simp] theorem Dev.setFlag_keep (n : Nat) : (d.setFlag n).keep = d.keep := rfl
@[simp] theorem Dev.setFlag_cps (n : Nat) : (d.setFlag n).cps = d.cps := rfl
@[simp] theorem Dev.setFlag_fab (n : Nat) : (d.setFlag n).fab = d.fab := rfl
@[simp] theorem Dev.setFlag_med (n : Nat) : (d.setFlag n).med = d.med := rfl
@[simp] theorem Dev.setFlag_refLost (n : Nat) : (d.setFlag n).refLost = d.refLost := rfl
@[simp] theorem Dev.setFlag_tripped (n : Nat) : (d.setFlag n).tripped = d.tripped := rfl
@[simp] theorem Dev.setFlag_out (n : Nat) : (d.setFlag n).out = d.out := rfl

@[simp] theorem Dev.clrFlag_ctr (n : Nat) : (d.clrFlag n).ctr = d.ctr := rfl
@[simp] theorem Dev.clrFlag_epoch (n : Nat) : (d.clrFlag n).epoch = d.epoch := rfl
@[simp] theorem Dev.clrFlag_regs (n : Nat) : (d.clrFlag n).regs = d.regs := rfl
@[simp] theorem Dev.clrFlag_mem (n : Nat) : (d.clrFlag n).mem = d.mem := rfl
@[simp] theorem Dev.clrFlag_poison (n : Nat) : (d.clrFlag n).poison = d.poison := rfl
@[simp] theorem Dev.clrFlag_stale (n : Nat) : (d.clrFlag n).stale = d.stale := rfl
@[simp] theorem Dev.clrFlag_cap48 (n : Nat) : (d.clrFlag n).cap48 = d.cap48 := rfl
@[simp] theorem Dev.clrFlag_lost (n : Nat) : (d.clrFlag n).lost = d.lost := rfl
@[simp] theorem Dev.clrFlag_cores (n : Nat) : (d.clrFlag n).cores = d.cores := rfl
@[simp] theorem Dev.clrFlag_jobs (n : Nat) : (d.clrFlag n).jobs = d.jobs := rfl
@[simp] theorem Dev.clrFlag_ctxLevel (n : Nat) : (d.clrFlag n).ctxLevel = d.ctxLevel := rfl
@[simp] theorem Dev.clrFlag_ctxLast (n : Nat) : (d.clrFlag n).ctxLast = d.ctxLast := rfl
@[simp] theorem Dev.clrFlag_ctxRate (n : Nat) : (d.clrFlag n).ctxRate = d.ctxRate := rfl
@[simp] theorem Dev.clrFlag_ctxBurst (n : Nat) : (d.clrFlag n).ctxBurst = d.ctxBurst := rfl
@[simp] theorem Dev.clrFlag_bwrPend (n : Nat) : (d.clrFlag n).bwrPend = d.bwrPend := rfl
@[simp] theorem Dev.clrFlag_cyc16 (n : Nat) : (d.clrFlag n).cyc16 = d.cyc16 := rfl
@[simp] theorem Dev.clrFlag_ticks (n : Nat) : (d.clrFlag n).ticks = d.ticks := rfl
@[simp] theorem Dev.clrFlag_time (n : Nat) : (d.clrFlag n).time = d.time := rfl
@[simp] theorem Dev.clrFlag_queues (n : Nat) : (d.clrFlag n).queues = d.queues := rfl
@[simp] theorem Dev.clrFlag_ctxs (n : Nat) : (d.clrFlag n).ctxs = d.ctxs := rfl
@[simp] theorem Dev.clrFlag_owners (n : Nat) : (d.clrFlag n).owners = d.owners := rfl
@[simp] theorem Dev.clrFlag_sems (n : Nat) : (d.clrFlag n).sems = d.sems := rfl
@[simp] theorem Dev.clrFlag_ports (n : Nat) : (d.clrFlag n).ports = d.ports := rfl
@[simp] theorem Dev.clrFlag_commit (n : Nat) : (d.clrFlag n).commit = d.commit := rfl
@[simp] theorem Dev.clrFlag_bells (n : Nat) : (d.clrFlag n).bells = d.bells := rfl
@[simp] theorem Dev.clrFlag_units (n : Nat) : (d.clrFlag n).units = d.units := rfl
@[simp] theorem Dev.clrFlag_flog (n : Nat) : (d.clrFlag n).flog = d.flog := rfl
@[simp] theorem Dev.clrFlag_pm (n : Nat) : (d.clrFlag n).pm = d.pm := rfl
@[simp] theorem Dev.clrFlag_fw (n : Nat) : (d.clrFlag n).fw = d.fw := rfl
@[simp] theorem Dev.clrFlag_keep (n : Nat) : (d.clrFlag n).keep = d.keep := rfl
@[simp] theorem Dev.clrFlag_cps (n : Nat) : (d.clrFlag n).cps = d.cps := rfl
@[simp] theorem Dev.clrFlag_fab (n : Nat) : (d.clrFlag n).fab = d.fab := rfl
@[simp] theorem Dev.clrFlag_med (n : Nat) : (d.clrFlag n).med = d.med := rfl
@[simp] theorem Dev.clrFlag_refLost (n : Nat) : (d.clrFlag n).refLost = d.refLost := rfl
@[simp] theorem Dev.clrFlag_tripped (n : Nat) : (d.clrFlag n).tripped = d.tripped := rfl
@[simp] theorem Dev.clrFlag_out (n : Nat) : (d.clrFlag n).out = d.out := rfl

end Sys2Proof.Machine
end

