-- ==== Sys2Proof/Laws/Ops.lean ====
section
/-! SUPPORT. What each shared operation can do, said once: commands, registers, cores, ports, memory, and the issue of a
slot operation. -/

namespace Sys2Proof.Machine

open Sys2Proof.Safety

/-! ### Commands -/

theorem act_live {s : State} (h : Live s) (f : Dev → Dev) :
    act s f = .next { s with dev := { f s.dev with ctr := s.dev.ctr + 1 } } := by
  simp [act, h.1, h.2]

theorem act_after {s : State} (h : Live s) (f : Dev → Dev) : act s f = .next (after s (f s.dev)) := act_live h f

theorem actAll_live {s : State} (h : Live s) (f : State → State) :
    actAll s f = .next { f s with dev := { (f s).dev with ctr := s.dev.ctr + 1 }, pending := s.pending } := by
  simp [actAll, h.1, h.2]

/-- A command that answers a next state: the clocks run and the device is changed, or a trip has stopped them. -/
theorem act_cases {s t : State} {f : Dev → Dev} (h : act s f = .next t) :
    s.dev.refLost = false ∧
      ((s.dev.tripped = true ∧ t = s) ∨ (s.dev.tripped = false ∧ t = after s (f s.dev))) := by
  unfold act at h
  split at h
  · cases h
  · split at h <;> simp_all [after]

/-! ### Registers -/

theorem Dev.word_setReg (d : Dev) (o k : Nat) (v : Word) : (d.setReg o v).word k = if o = k then v else d.word k := by
  simp [Dev.word, Dev.setReg, Tbl.getD_set]

theorem Dev.reg_setReg (d : Dev) (o k : Nat) (v : Word) : (d.setReg o v).reg k = if o = k then v else d.reg k :=
  d.word_setReg o k v

@[simp] theorem Dev.reg_setReg_self (d : Dev) (o : Nat) (v : Word) : (d.setReg o v).reg o = v := by
  simp [Dev.reg_setReg]

theorem Dev.reg_of_regs {d e : Dev} (h : d.regs = e.regs) (o : Nat) : d.reg o = e.reg o := by
  simp [Dev.reg, Dev.word, h]

/-! ### Cores, jobs, ports, queues, units -/

theorem Dev.core_setCore (d : Dev) (n m : Nat) (c : Core) : (d.setCore n c).core m = if n = m then c else d.core m := by
  simp [Dev.core, Dev.setCore, Tbl.getD_set]

theorem Dev.core_updCore (d : Dev) (n m : Nat) (f : Core → Core) :
    (d.updCore n f).core m = if n = m then f (d.core n) else d.core m := by
  simp [Dev.updCore, Dev.core_setCore]

@[simp] theorem Dev.core_updCore_self (d : Dev) (n : Nat) (f : Core → Core) : (d.updCore n f).core n = f (d.core n) := by
  simp [Dev.core_updCore]

theorem Dev.job?_setJob (d : Dev) (l m : Nat) (j : Job) :
    (d.setJob l j).job? m = if l = m then some j else d.job? m := by
  simp [Dev.job?, Dev.setJob, Tbl.find?_set]

theorem Port.idx_inj {p q : Port} (h : p.idx = q.idx) : p = q := by
  cases p <;> cases q <;> simp_all [Port.idx]

theorem Dev.port_updPort (d : Dev) (p q : Port) (f : PortSt → PortSt) :
    (d.updPort p f).port q = if p = q then f (d.port p) else d.port q := by
  simp only [Dev.port, Dev.updPort, Tbl.getD_set]
  cases p <;> cases q <;> rfl

theorem Dev.queue_updQueue (d : Dev) (n m : Nat) (f : Queue → Queue) :
    (d.updQueue n f).queue m = if n = m then f (d.queue n) else d.queue m := by
  simp [Dev.queue, Dev.updQueue, Tbl.getD_set]

theorem Dev.unit_updUnit (d : Dev) (n m : Nat) (f : HUnit → HUnit) :
    (d.updUnit n f).unit m = if n = m then f (d.unit n) else d.unit m := by
  simp [Dev.unit, Dev.updUnit, Tbl.getD_set]

/-! ### Memory -/

/-- What an unlisted byte reads as follows from the losses alone. -/
theorem Dev.blank_of_lost {d e : Dev} (h : e.lost = d.lost) : e.blank = d.blank := by funext a; simp [Dev.blank, h]

theorem Dev.byte_putByte (d : Dev) (a i : Nat) (b : Byte) : (d.putByte a b).byte i = if a = i then b else d.byte i := by
  have e : (d.putByte a b).blank = d.blank := Dev.blank_of_lost rfl
  have : ∀ j, Tbl.getD (Tbl.put (d.blank a) d.mem a b) j (d.blank j) = if a = j then b else Tbl.getD d.mem j (d.blank j) := by
    intro j
    by_cases h : a = j
    · subst h; simp [Tbl.getD_put]
    · unfold Tbl.put
      split <;> simp [Tbl.getD, Tbl.find?_erase, Tbl.find?_set, h]
  simp only [Dev.byte, e]
  exact this i

theorem Dev.byte_storeByte (d : Dev) (g : Agent) (a i : Nat) (b : Byte) (ser : Nat := 0) :
    (d.storeByte g a b ser).byte i = if a = i then b else d.byte i := by
  unfold Dev.storeByte
  rw [Dev.byte_putByte]
  rfl

/-! ### The issue of a slot operation -/

@[simp] theorem Dev.meet_none (d : Dev) : d.meet {} = d := rfl

@[simp] theorem Dev.meetAt_none (d : Dev) (c : At) (h : c.ph = {}) : d.meetAt c = d := by
  simp [Dev.meetAt, h]

/-- The watchdog of the core's gang restarts. -/
theorem Dev.core_issued (d : Dev) (n m : Nat) :
    (d.issued n).core m = { d.core m with stall := if (d.core n).gang = some m then 0 else (d.core m).stall } := by
  unfold Dev.issued
  split
  · rename_i l h
    rw [Dev.core_updCore]
    by_cases e : l = m
    · subst e; simp [h]
    · simp [e, h]
  · rename_i h
    simp [h]

theorem Dev.slot_ready {s : State} {c : At} {k : Nat} (h : CanIssue s c k) (f : Dev → Nat → View → SlotRes) :
    s.dev.slot c k f = match f s.dev c.core.val (s.dev.core c.core.val).operands with
      | .ok d => (d.updCore c.core.val (fun c => c.mark k)).issued c.core.val
      | .wait d => d
      | .halt d r aux => d.haltGang c.core.val r k aux (d.curPos c.core.val)
      | .miss d u kind => d.detect c.core.val u kind (d.curPos c.core.val) := by
  obtain ⟨-, hp, hi, hk, -⟩ := h
  simp only [Dev.slot, hi, hk, Dev.meetAt_none _ _ hp, hp, Bool.not_true, Bool.or_self, Bool.false_and, Bool.false_eq_true,
    if_false] <;> rfl

/-- A slot operation that its bundle holds has its own effect; one that it does not hold has none (R108). -/
theorem slotAct_live {i : Instr} {s : State} (h : Live s) (f : Dev → Dev) :
    slotAct i s f = .next (after s (if s.dev.holds i then f s.dev else s.dev)) := act_after h _

/-- Issue with an effect on the issuing core alone. -/
theorem issued_of_core {s : State} {c : At} {k : Nat} (g : Core → Core)
    (hg : (g (s.dev.core c.core.val)).gang = (s.dev.core c.core.val).gang)
    (hs : (g (s.dev.core c.core.val)).stall = (s.dev.core c.core.val).stall) (d : Dev)
    (hd : d = { s.dev with cores := d.cores })
    (hc : ∀ m, d.core m = if m = c.core.val then g (s.dev.core m) else s.dev.core m) :
    Issued s (after s ((d.updCore c.core.val (fun c => c.mark k)).issued c.core.val)) c k g := by
  refine ⟨?_, ?_⟩
  · simp only [OnlyCores, after]
    congr 1
    have : ∀ e : Dev, ((e.updCore c.core.val (fun c => c.mark k)).issued c.core.val) =
        { e with cores := ((e.updCore c.core.val (fun c => c.mark k)).issued c.core.val).cores } := by
      intro e
      unfold Dev.issued
      split <;> rfl
    rw [this d]
    rw [hd]
  · intro m
    show ((d.updCore c.core.val (fun c => c.mark k)).issued c.core.val).core m = _
    rw [Dev.core_issued, Dev.core_updCore, Dev.core_updCore]
    simp only [hc]
    by_cases e : c.core.val = m
    · subst e
      simp [hg, hs, Core.mark]
    · have e' : ¬ m = c.core.val := fun h => e h.symm
      simp [e, e', hg, Core.mark]

end Sys2Proof.Machine
end

