-- ==== Sys2Proof/Laws/Memory.lean ====
section
/-! SUPPORT. Memory keeps its canonical form under every operation that writes it, and what each of them leaves in a byte. -/

namespace Sys2Proof.Machine

/-- The canonical form in the terms of tables: rising keys, and no byte listed that an unlisted address reads as. -/
theorem Memory.wf_iff (bl : Nat → Byte) (m : Tbl Byte) : Memory.wf bl m = true ↔ Tbl.Rising m ∧ ∀ e ∈ m, e.2 ≠ bl e.1 := by
  induction m with
  | nil => simp [Memory.wf, Tbl.Rising]
  | cons e t ih =>
    obtain ⟨a, b⟩ := e
    cases t with
    | nil => simp [Memory.wf, Tbl.Rising]
    | cons f u =>
      obtain ⟨c, x⟩ := f
      simp only [Memory.wf, Bool.and_eq_true, decide_eq_true_eq, ih]
      constructor
      · rintro ⟨⟨hb, hac⟩, hr, hz⟩
        refine ⟨List.pairwise_cons.2 ⟨?_, hr⟩, ?_⟩
        · intro e he
          rcases List.mem_cons.1 he with rfl | he
          · exact hac
          · have := (List.pairwise_cons.1 hr).1 e he
            simp only at this ⊢; omega
        · intro e he
          rcases List.mem_cons.1 he with rfl | he
          · exact hb
          · exact hz e he
      · rintro ⟨hr, hz⟩
        have h := List.pairwise_cons.1 hr
        exact ⟨⟨hz _ List.mem_cons_self, h.1 _ List.mem_cons_self⟩, h.2, fun e he => hz e (List.mem_cons_of_mem _ he)⟩

theorem Tbl.mem_erase_ne {α : Type} (t : Tbl α) (i : Nat) (e : Nat × α) (h : e ∈ Tbl.erase t i) : e.1 ≠ i := by
  induction t with
  | nil => simp [Tbl.erase] at h
  | cons f t ih =>
    obtain ⟨k, v⟩ := f
    simp only [Tbl.erase] at h
    split at h
    · exact ih h
    · rename_i hk
      rcases List.mem_cons.1 h with rfl | h
      · exact hk
      · exact ih h

theorem Memory.wf_put {bl : Nat → Byte} {m : Tbl Byte} (h : Memory.wf bl m = true) (a : Nat) (b : Byte) :
    Memory.wf bl (Tbl.put (bl a) m a b) = true := by
  rw [Memory.wf_iff] at h ⊢
  unfold Tbl.put
  split
  · exact ⟨Tbl.rising_erase m a h.1, fun e he => h.2 e (Tbl.mem_erase m a e he)⟩
  · rename_i hb
    refine ⟨Tbl.rising_set m a b h.1, fun e he => ?_⟩
    rcases Tbl.keys_set m a b e he with rfl | he
    · exact hb
    · exact h.2 e he

/-- The form holds over another blank that agrees on the addresses that stay. -/
theorem Memory.wf_restrict {bl bl' : Nat → Byte} {m : Tbl Byte} (h : Memory.wf bl m = true) (p : Nat → Bool)
    (e : ∀ a, p a = true → bl' a = bl a) : Memory.wf bl' (Tbl.restrict m p) = true := by
  rw [Memory.wf_iff] at h ⊢
  refine ⟨List.Pairwise.filter _ h.1, fun x hx => ?_⟩
  have := List.mem_filter.1 hx
  rw [e x.1 this.2]
  exact h.2 x this.1

/-! ### Every operation keeps the canonical form -/

theorem Dev.memWf_iff {d e : Dev} (hm : e.mem = d.mem) (hl : e.lost = d.lost) : e.memWf = d.memWf := by
  simp [Dev.memWf, hm, Dev.blank_of_lost hl]

theorem Dev.wf_putByte {d : Dev} (h : d.memWf = true) (a : Nat) (b : Byte) : (d.putByte a b).memWf = true :=
  Memory.wf_put h a b

theorem Dev.wf_storeByte {d : Dev} (h : d.memWf = true) (g : Agent) (a : Nat) (b : Byte) (ser : Nat) :
    (d.storeByte g a b ser).memWf = true := Memory.wf_put (bl := d.blank) h a b

theorem Dev.wf_storeList (g : Agent) (l : List Byte) :
    ∀ {d : Dev} (a : Nat), d.memWf = true → (d.storeList g a l).memWf = true := by
  induction l with
  | nil => intro d a h; exact h
  | cons b t ih => intro d a h; exact ih (a + 1) (Dev.wf_storeByte h g a b 0)

/-- Outside a loss memory reads as before it. -/
theorem Dev.blank_lose {d : Dev} {a n i : Nat} (h : i < a ∨ a + n ≤ i) : (d.lose a n).blank i = d.blank i := by
  have : ¬ (a ≤ i ∧ i < a + n) := by omega
  simp [Dev.blank, Dev.lose, this]

theorem Dev.wf_lose {d : Dev} (h : d.memWf = true) (a n : Nat) : (d.lose a n).memWf = true :=
  Memory.wf_restrict (bl := d.blank) h (fun x => decide (x < a ∨ a + n ≤ x)) (fun i hi => Dev.blank_lose (of_decide_eq_true hi))

/-- A list of bytes is stored at its addresses and nowhere else. -/
theorem Dev.byte_storeList (g : Agent) (l : List Byte) :
    ∀ (d : Dev) (a i : Nat), (d.storeList g a l).byte i = if a ≤ i ∧ i < a + l.length then l.getD (i - a) 0 else d.byte i := by
  induction l with
  | nil => intro d a i; simp [Dev.storeList] <;> omega
  | cons b t ih =>
    intro d a i
    simp only [Dev.storeList, ih, Dev.byte_storeByte, List.length_cons]
    by_cases h : i = a
    · subst h
      rw [if_neg (by omega), if_pos rfl, if_pos (by omega)]
      simp
    · by_cases k : a + 1 ≤ i ∧ i < a + 1 + t.length
      · rw [if_pos k, if_pos (by omega)]
        obtain ⟨j, rfl⟩ : ∃ j, i = a + 1 + j := ⟨i - (a + 1), by omega⟩
        have e : a + 1 + j - a = j + 1 := by omega
        have f : a + 1 + j - (a + 1) = j := by omega
        simp [e, f]
      · rw [if_neg k, if_neg (fun h' => h h'.symm), if_neg (by omega)]

/-! ### What a write does beside storing its bytes -/

@[simp] theorem Dev.mem_setReg (d : Dev) (o : Nat) (v : Word) : (d.setReg o v).mem = d.mem := rfl

@[simp] theorem Dev.mem_add64 (d : Dev) (lo hi n : Nat) : (d.add64 lo hi n).mem = d.mem := rfl

@[simp] theorem Dev.mem_countRd (d : Dev) (a n : Nat) : (d.countRd a n).mem = d.mem := by
  simp only [Dev.countRd]; split <;> simp

@[simp] theorem Dev.mem_countWr (d : Dev) (a n : Nat) : (d.countWr a n).mem = d.mem := by
  simp only [Dev.countWr]; split <;> split <;> simp

@[simp] theorem Dev.mem_cleanPoison (d : Dev) (a n : Nat) : (d.cleanPoison a n).mem = d.mem := rfl

@[simp] theorem Dev.mem_logFault (d : Dev) (r : FaultRec) : (d.logFault r).mem = d.mem := rfl

@[simp] theorem Dev.mem_fenceUnit (d : Dev) (u : Nat) : (d.fenceUnit u).mem = d.mem := rfl

@[simp] theorem Dev.mem_satReg (d : Dev) (o n : Nat) : (d.satReg o n).mem = d.mem := rfl

@[simp] theorem Dev.mem_updUnit (d : Dev) (u : Nat) (f : HUnit → HUnit) : (d.updUnit u f).mem = d.mem := rfl

@[simp] theorem Dev.mem_unitEvent (d : Dev) (u : Nat) (r : FaultRec) : (d.unitEvent u r).mem = d.mem := by
  unfold Dev.unitEvent
  simp only
  split
  · simp
  · split <;> split <;> simp

@[simp] theorem Dev.mem_eccEvent (d : Dev) (job : Option (Nat × Job)) (u a : Nat) : (d.eccEvent job u a).mem = d.mem := by
  simp [Dev.eccEvent]

theorem Dev.mem_foldl {α : Type} (f : Dev → α → Dev) (h : ∀ d x, (f d x).mem = d.mem) (l : List α) :
    ∀ d : Dev, (l.foldl f d).mem = d.mem := by
  induction l with
  | nil => intro d; rfl
  | cons x t ih => intro d; rw [List.foldl_cons, ih, h]

@[simp] theorem Dev.mem_partialEvents (d : Dev) (g : Agent) (a n : Nat) : (d.partialEvents g a n).mem = d.mem := by
  unfold Dev.partialEvents
  exact Dev.mem_foldl _ (fun _ _ => by simp) _ _

@[simp] theorem Dev.lost_countRd (d : Dev) (a n : Nat) : (d.countRd a n).lost = d.lost := by
  simp only [Dev.countRd]; split <;> simp

@[simp] theorem Dev.lost_countWr (d : Dev) (a n : Nat) : (d.countWr a n).lost = d.lost := by
  simp only [Dev.countWr]; split <;> split <;> simp

@[simp] theorem Dev.lost_logFault (d : Dev) (r : FaultRec) : (d.logFault r).lost = d.lost := rfl

@[simp] theorem Dev.lost_fenceUnit (d : Dev) (u : Nat) : (d.fenceUnit u).lost = d.lost := rfl

@[simp] theorem Dev.lost_unitEvent (d : Dev) (u : Nat) (r : FaultRec) : (d.unitEvent u r).lost = d.lost := by
  unfold Dev.unitEvent
  simp only
  split
  · simp
  · split <;> split <;> simp

@[simp] theorem Dev.lost_eccEvent (d : Dev) (job : Option (Nat × Job)) (u a : Nat) : (d.eccEvent job u a).lost = d.lost := by
  simp [Dev.eccEvent]

theorem Dev.lost_foldl {α : Type} (f : Dev → α → Dev) (h : ∀ d x, (f d x).lost = d.lost) (l : List α) :
    ∀ d : Dev, (l.foldl f d).lost = d.lost := by
  induction l with
  | nil => intro d; rfl
  | cons x t ih => intro d; rw [List.foldl_cons, ih, h]

@[simp] theorem Dev.lost_partialEvents (d : Dev) (g : Agent) (a n : Nat) : (d.partialEvents g a n).lost = d.lost := by
  unfold Dev.partialEvents
  exact Dev.lost_foldl _ (fun _ _ => by simp) _ _

/-- A byte depends on the listed memory and on the losses. -/
theorem Dev.byte_of_mem {d e : Dev} (hm : e.mem = d.mem) (hl : e.lost = d.lost) (i : Nat) : e.byte i = d.byte i := by
  simp [Dev.byte, hm, Dev.blank_of_lost hl]

/-- A store writes its bytes at their addresses and no other byte. -/
theorem Dev.byte_store (d : Dev) (g : Agent) (a : Nat) (l : List Byte) (i : Nat) :
    (d.store g a l).byte i = if a ≤ i ∧ i < a + l.length then l.getD (i - a) 0 else d.byte i := by
  unfold Dev.store
  rw [Dev.byte_storeList, Dev.byte_of_mem (d := d) (by simp) (by simp)]

theorem Dev.byte_storeNow (d : Dev) (a : Nat) (l : List Byte) (i : Nat) :
    (d.storeNow a l).byte i = if a ≤ i ∧ i < a + l.length then l.getD (i - a) 0 else d.byte i :=
  d.byte_store agentFw a l i

theorem Dev.wf_store {d : Dev} (h : d.memWf = true) (g : Agent) (a : Nat) (l : List Byte) : (d.store g a l).memWf = true := by
  unfold Dev.store
  refine Dev.wf_storeList g l a ?_
  rw [Dev.memWf_iff (d := d) (by simp) (by simp)]
  exact h

theorem Dev.wf_storeNow {d : Dev} (h : d.memWf = true) (a : Nat) (l : List Byte) : (d.storeNow a l).memWf = true :=
  Dev.wf_store h agentFw a l

theorem Tbl.find?_restrict {α : Type} (t : Tbl α) (p : Nat → Bool) (i : Nat) :
    Tbl.find? (Tbl.restrict t p) i = if p i then Tbl.find? t i else none := by
  induction t with
  | nil => simp [Tbl.restrict, Tbl.find?]
  | cons e t ih =>
    obtain ⟨k, v⟩ := e
    simp only [Tbl.restrict, List.filter_cons] at ih ⊢
    by_cases hk : p k = true
    · simp only [hk, if_true, Tbl.find?, ih]
      by_cases e : k = i
      · subst e; simp [hk]
      · simp [e]
    · simp only [hk, Tbl.find?]
      by_cases e : k = i
      · subst e; simp_all
      · simp [e, ih]

/-- Lost memory reads free bytes of the loss, the rest as before. -/
theorem Dev.byte_lose (d : Dev) (a n i : Nat) :
    (d.lose a n).byte i = if a ≤ i ∧ i < a + n then Config.lostByte d.ctr i else d.byte i := by
  by_cases h : a ≤ i ∧ i < a + n
  · have : ¬ (i < a ∨ a + n ≤ i) := by omega
    simp [Dev.byte, Dev.lose, Dev.blank, Tbl.getD, Tbl.find?_restrict, h, this]
  · have k : i < a ∨ a + n ≤ i := by omega
    have e := Dev.blank_lose (d := d) k
    simp only [Dev.byte, e, if_neg h]
    simp [Dev.lose, Tbl.getD, Tbl.find?_restrict, k]

theorem Dev.wf_loseMemory {d : Dev} (h : d.memWf = true) (a n : Nat) : (d.loseMemory a n).memWf = true := by
  have := Dev.wf_lose h a n
  exact this

end Sys2Proof.Machine
end

