-- ==== Sys2Proof/WellFormed.lean ====
section
/-! DEFINITION. Which commands can be sent: the bounds on operands that their types leave open. A command outside them is no
event of the hardware. -/

namespace Sys2Proof

open Sys2Proof.Machine

/-- Physical errors name words of the address space and units 0 to 49 (R322). -/
def Phys.wf (x : Phys) : Bool := x.bad.all (fun a => decide (a < pow2 48)) && x.corr.all (fun e => decide (e.1 < 50))

def At.wf (c : At) : Bool := c.ph.wf

/-- The fields of a packet fit their widths (Table 14.1). -/
def FPkt.wf (k : FPkt) : Bool :=
  decide (k.ty < 256 ∧ k.vc < 2 ∧ k.hops < 16 ∧ k.dst < 4096 ∧ k.src < 4096 ∧ k.group < 256) &&
  decide (k.lseq < 65536 ∧ k.lack < 65536 ∧ k.credReq < 1024 ∧ k.credRsp < 1024 ∧ k.addr < pow2 48) &&
  decide (k.eseq < 65536 ∧ k.ring < 16 ∧ k.payload.length ≤ 512)

/-- The rows of a plane have one width. -/
def planeWf (w h : Nat) (rows : List (List Nat)) : Bool := decide (rows.length = h) && rows.all (fun r => decide (r.length = w))

/-- A picture holds as many samples as its size says, and its crop lies inside it. -/
def AuPic.wf (x : AuPic) : Bool :=
  planeWf x.pic.w x.pic.h x.pic.y && decide (x.crop.x + x.crop.w ≤ x.pic.w ∧ x.crop.y + x.crop.h ≤ x.pic.h)

/-- A temperature in 1/8 °C fits 16 bits. -/
def temp16 (t : Int) : Bool := decide (-32768 ≤ t ∧ t < 32768)

/-- A failed test names a pattern by a 32-bit number. -/
def TestEnd.wf : TestEnd → Bool
  | .pass => true
  | .fail k => decide (k < pow2 32)
  | .aborted => true

/-- A BAR2 access has at least one byte, and at most the 4,096 of a PCIe packet; it lies in the 4 GiB of BAR2 (R282). -/
def accessWf (off : BitVec 48) (data : Option (List Byte)) (len : BitVec 16) : Bool :=
  let n := match data with
    | some l => l.length
    | none => len.toNat
  decide (0 < n ∧ n ≤ 4096 ∧ off.toNat + n ≤ pow2 32)

/-- The command is one that can be sent. -/
def Instr.wf : Instr → Bool
  | .stageWrite _ _ _ => true
  | .check _ => true
  | .apply _ _ _ => true
  | .commitCancel _ => true
  | .discard _ => true
  | .badCommand _ => true
  | .commitTakesEffect _ => true
  | .expired => true
  | .take _ => true
  | .snapReady _ => true
  | .snapDataRead _ => true
  | .bundleFetch c => c.wf
  | .icacheFill c => c.wf
  | .bundleDecode c => c.wf
  | .bundleRetire c => c.wf
  | .stallWatchdog _ _ => true
  | .nop c _ => c.wf
  | .add c _ _ _ => c.wf
  | .sub c _ _ _ => c.wf
  | .mul c _ _ _ => c.wf
  | .mulh c _ _ _ => c.wf
  | .and c _ _ _ => c.wf
  | .or c _ _ _ => c.wf
  | .xor c _ _ _ => c.wf
  | .shl c _ _ _ => c.wf
  | .shr c _ _ _ => c.wf
  | .sra c _ _ _ => c.wf
  | .min c _ _ _ => c.wf
  | .max c _ _ _ => c.wf
  | .minu c _ _ _ => c.wf
  | .maxu c _ _ _ => c.wf
  | .slt c _ _ _ => c.wf
  | .sltu c _ _ _ => c.wf
  | .seq c _ _ _ => c.wf
  | .addi c _ _ _ => c.wf
  | .andi c _ _ _ => c.wf
  | .ori c _ _ _ => c.wf
  | .xori c _ _ _ => c.wf
  | .shli c _ _ _ => c.wf
  | .shri c _ _ _ => c.wf
  | .srai c _ _ _ => c.wf
  | .slti c _ _ _ => c.wf
  | .li c _ _ => c.wf
  | .lih c _ _ => c.wf
  | .aadd c _ _ _ => c.wf
  | .aaddi c _ _ _ => c.wf
  | .amov c _ _ => c.wf
  | .mova c _ _ => c.wf
  | .br c _ _ _ _ => c.wf
  | .j c _ => c.wf
  | .jr c _ => c.wf
  | .mfs c _ _ => c.wf
  | .mts c _ => c.wf
  | .vadd c _ => c.wf
  | .vsub c _ => c.wf
  | .vmul c _ => c.wf
  | .vfma c _ => c.wf
  | .vmin c _ => c.wf
  | .vmax c _ => c.wf
  | .vabs c _ => c.wf
  | .vneg c _ => c.wf
  | .vand c _ => c.wf
  | .vor c _ => c.wf
  | .vxor c _ => c.wf
  | .vshl c _ => c.wf
  | .vshr c _ => c.wf
  | .vcmp c _ _ => c.wf
  | .vsel c _ => c.wf
  | .vmov c _ => c.wf
  | .vbcast c _ => c.wf
  | .vext c _ => c.wf
  | .viota c _ => c.wf
  | .plog c _ _ => c.wf
  | .pset c _ _ => c.wf
  | .vcvt c _ _ _ scale => c.wf && decide (-127 ≤ scale ∧ scale ≤ 127)
  | .vlut c _ _ => c.wf
  | .vred c _ _ => c.wf
  | .vwmax c _ _ _ => c.wf
  | .vwavg c _ _ _ => c.wf
  | .vboxdec c _ _ => c.wf
  | .vnms c _ => c.wf
  | .mstream c _ _ _ _ _ _ _ _ => c.wf
  | .mswap c _ => c.wf
  | .mclr c _ _ _ _ => c.wf
  | .mard c _ _ _ _ => c.wf
  | .mawr c _ _ _ _ _ => c.wf
  | .lds c _ _ _ _ => c.wf
  | .vld c _ _ _ => c.wf
  | .vgth c _ _ _ => c.wf
  | .srow c _ _ _ _ _ _ _ => c.wf
  | .wgather c _ _ _ _ => c.wf
  | .wfill c _ _ _ _ => c.wf
  | .tld c _ _ => c.wf
  | .sts c _ _ _ _ => c.wf
  | .vst c _ _ _ _ _ _ => c.wf
  | .vsct c _ _ _ => c.wf
  | .drain c _ _ _ _ _ _ _ _ => c.wf
  | .statst c _ _ _ => c.wf
  | .layer c _ => c.wf
  | .loop c _ _ => c.wf
  | .lcset c _ _ => c.wf
  | .set c _ => c.wf
  | .wait c _ => c.wf
  | .setl c _ _ => c.wf
  | .waitl c _ _ _ => c.wf
  | .bar c => c.wf
  | .phase c _ => c.wf
  | .dma c _ _ => c.wf
  | .dwait c _ => c.wf
  | .end_ c => c.wf
  | .replay _ => true
  | .halt _ _ => true
  | .resume _ _ => true
  | .trailDrop _ => true
  | .dmaBatchFetch c => c.wf
  | .dmaCopy c _ => c.toAt.wf
  | .dmaGather c _ => c.toAt.wf
  | .dmaFeed c _ => c.toAt.wf
  | .dmaNop c => c.toAt.wf
  | .dmaDescComplete c => c.wf
  | .bucketRefill => true
  | .regulatedRequest _ _ => true
  | .bwrBucketWrite _ _ _ _ => true
  | .scrub fixed => fixed.all (fun a => decide (a.toNat % 32 = 0))
  | .bar2Access _ off data len ph => ph.wf && accessWf off data len
  | .bar0BadAccess _ => true
  | .registerWrite _ _ _ => true
  | .rcRead _ _ => true
  | .pairLoRead _ _ => true
  | .pairLoWrite _ _ _ => true
  | .pairHiWrite _ _ _ => true
  | .frameStart _ _ _ _ => true
  | .frameEnd _ _ _ => true
  | .linePacket _ _ _ wire _ _ _ => decide (wire.length < 65536)
  | .unmatchedPacket _ _ _ _ => true
  | .headerError _ => true
  | .deskew _ => true
  | .frameComplete _ => true
  | .frameLate _ => true
  | .sensorWriteBatch _ => true
  | .ispParamFetch _ => true
  | .scbXfer _ _ _ => true
  | .scbXferDone _ _ _ => true
  | .ibi _ => true
  | .memoryJob _ => true
  | .memoryJobDone _ => true
  | .accessUnit _ au => au.all AuPic.wf
  | .pictureOutput _ => true
  | .encodeJob _ coded => decide (coded.length < 4294967296)
  | .sample _ => true
  | .waitExpired _ => true
  | .batchEmit _ => true
  | .batchTimeout _ => true
  | .semRead _ _ _ => true
  | .semRelease _ _ _ => true
  | .doorbell _ _ _ _ => true
  | .entryConsume _ => true
  | .entryStart _ _ => true
  | .entryTimeout _ _ => true
  | .completionDeliver _ => true
  | .msixTimer _ => true
  | .deadlock qs => !qs.isEmpty
  | .qmFlagSet _ _ => true
  | .qmFlagClr _ _ => true
  | .createQueue _ => true
  | .deleteQueue _ => true
  | .stopQueue _ => true
  | .resumeQueue _ => true
  | .cancel _ => true
  | .createContext _ => true
  | .destroyContext _ => true
  | .give _ => true
  | .adopt _ => true
  | .prepareOff _ _ => true
  | .restStopTest _ _ _ _ _ => true
  | .unfence _ => true
  | .unfenceTakesEffect _ => true
  | .fwStage _ ph => ph.wf
  | .fwActivate _ => true
  | .handoverBegin => true
  | .handoverSwitch _ => true
  | .actAborted => true
  | .fwCancel _ => true
  | .restoreFactory _ => true
  | .attest _ bad corr _ => ({ bad := bad, corr := corr } : Phys).wf
  | .loadPatternPack _ ph => ph.wf
  | .attach _ _ => true
  | .reattach _ _ => true
  | .heartbeat _ => true
  | .heartbeatTimeout _ => true
  | .hostLinkDown _ => true
  | .hostLinkUp _ => true
  | .hostReset _ _ => true
  | .confirmationTest _ r temp => temp16 temp && r.wf
  | .fieldTest _ r temp => temp16 temp && r.wf
  | .fieldOverdue _ => true
  | .observedTimeout _ => true
  | .healthRecordWrite => true
  | .healthAgeUpdate => true
  | .telemetrySample readings => decide (readings.length = 8)
  | .estimate comp _ _ _ => decide (comp.length = 8)
  | .pmbusPoll _ => true
  | .telemetrySafeStep => true
  | .telemAck _ _ => true
  | .stepRaise => true
  | .boostStep => true
  | .droopTrip _ => true
  | .droopPersistence => true
  | .supplyWarn _ => true
  | .supplyRecover _ => true
  | .warnRamp => true
  | .supplyReset _ => true
  | .thermalSample readings => decide (readings.length = 20) && readings.all temp16
  | .thermalCeilingStep => true
  | .thermalTrip => true
  | .idleRetainEnter => true
  | .idleWake => true
  | .deep _ => true
  | .wake _ => true
  | .slew _ => true
  | .step _ => true
  | .eventEdge _ _ _ => true
  | .stampPop _ _ => true
  | .refPpsEdge _ => true
  | .refLost => true
  | .fsyncPulseStart _ => true
  | .fsyncPulseEnd _ => true
  | .ppsOutPulse => true
  | .syncOutMessage => true
  | .fabPortUp _ _ _ => true
  | .fabPortDown _ => true
  | .linkKeepalive _ => true
  | .link _ k => k.wf
  | .linkNak _ k => k.wf
  | .write _ k => k.wf
  | .flag _ k => k.wf
  | .ack _ k => k.wf
  | .nak _ k => k.wf
  | .hello _ k => k.wf
  | .helloSend => true
  | .beacon => true
  | .rootTimeout => true
  | .timeSync _ k _ => k.wf
  | .timeSyncSend _ => true
  | .timeReq _ k _ _ => k.wf
  | .timeRsp _ k _ => k.wf
  | .delayMeasure _ _ => true
  | .pruned _ k => k.wf
  | .join _ k => k.wf
  | .prune _ _ _ => true
  | .mcastJoin _ _ => true
  | .sendWrite _ => true
  | .sendFlag _ => true
  | .sendWriteFlag _ => true
  | .sendComplete _ => true
  | .resendTimeout _ => true
  | .fwLoad _ _ => true
  | .fwVerifyDone ph _ => ph.wf
  | .fwWatchdog _ _ => true
  | .qmCheck _ => true
  | .store _ bad corr _ => ({ bad := bad, corr := corr } : Phys).wf
  | .read _ => true
  | .challenge _ => true
  | .verify _ _ ph _ => ph.wf
  | .challengeExpired => true
  | .rngRead _ => true
  | .coldReset _ => true
  | .warmReset => true
  | .boot _ => true
  | .refclkLoss => true
  | .validationDone _ => true
  | .startOfTransmission _ => true
  | .sensorBatchEnd _ _ => true
  | .doubledRefresh _ => true
  | .eccWindowEnd => true
  | .droopDetectorClear _ => true
  | .wakeComplete => true
  | .firmwareReady => true
  | .fabPortTrain _ => true
  | .packetCrcError _ k => k.all FPkt.wf

end Sys2Proof
end

