-- ==== Sys2Proof/Laws/PerInstr.lean ====
section
/-! SUPPORT. What well-formedness says of each command's own parts: the physical errors that a command of a core meets, and
the packet that a command of the fabric carries. One lemma per constructor. -/

namespace Sys2Proof.Laws.Shape

open Sys2Proof.Machine

/-- The core that a command runs on, with the physical errors it meets. -/
def place : Instr → Option At
  | .stageWrite _ _ _ => none
  | .check _ => none
  | .apply _ _ _ => none
  | .commitCancel _ => none
  | .discard _ => none
  | .badCommand _ => none
  | .commitTakesEffect _ => none
  | .expired => none
  | .take _ => none
  | .snapReady _ => none
  | .snapDataRead _ => none
  | .bundleFetch c => some c
  | .icacheFill c => some c
  | .bundleDecode c => some c
  | .bundleRetire c => some c
  | .stallWatchdog _ _ => none
  | .nop c _ => some c
  | .add c _ _ _ => some c
  | .sub c _ _ _ => some c
  | .mul c _ _ _ => some c
  | .mulh c _ _ _ => some c
  | .and c _ _ _ => some c
  | .or c _ _ _ => some c
  | .xor c _ _ _ => some c
  | .shl c _ _ _ => some c
  | .shr c _ _ _ => some c
  | .sra c _ _ _ => some c
  | .min c _ _ _ => some c
  | .max c _ _ _ => some c
  | .minu c _ _ _ => some c
  | .maxu c _ _ _ => some c
  | .slt c _ _ _ => some c
  | .sltu c _ _ _ => some c
  | .seq c _ _ _ => some c
  | .addi c _ _ _ => some c
  | .andi c _ _ _ => some c
  | .ori c _ _ _ => some c
  | .xori c _ _ _ => some c
  | .shli c _ _ _ => some c
  | .shri c _ _ _ => some c
  | .srai c _ _ _ => some c
  | .slti c _ _ _ => some c
  | .li c _ _ => some c
  | .lih c _ _ => some c
  | .aadd c _ _ _ => some c
  | .aaddi c _ _ _ => some c
  | .amov c _ _ => some c
  | .mova c _ _ => some c
  | .br c _ _ _ _ => some c
  | .j c _ => some c
  | .jr c _ => some c
  | .mfs c _ _ => some c
  | .mts c _ => some c
  | .vadd c _ => some c
  | .vsub c _ => some c
  | .vmul c _ => some c
  | .vfma c _ => some c
  | .vmin c _ => some c
  | .vmax c _ => some c
  | .vabs c _ => some c
  | .vneg c _ => some c
  | .vand c _ => some c
  | .vor c _ => some c
  | .vxor c _ => some c
  | .vshl c _ => some c
  | .vshr c _ => some c
  | .vcmp c _ _ => some c
  | .vsel c _ => some c
  | .vmov c _ => some c
  | .vbcast c _ => some c
  | .vext c _ => some c
  | .viota c _ => some c
  | .plog c _ _ => some c
  | .pset c _ _ => some c
  | .vcvt c _ _ _ _ => some c
  | .vlut c _ _ => some c
  | .vred c _ _ => some c
  | .vwmax c _ _ _ => some c
  | .vwavg c _ _ _ => some c
  | .vboxdec c _ _ => some c
  | .vnms c _ => some c
  | .mstream c _ _ _ _ _ _ _ _ => some c
  | .mswap c _ => some c
  | .mclr c _ _ _ _ => some c
  | .mard c _ _ _ _ => some c
  | .mawr c _ _ _ _ _ => some c
  | .lds c _ _ _ _ => some c
  | .vld c _ _ _ => some c
  | .vgth c _ _ _ => some c
  | .srow c _ _ _ _ _ _ _ => some c
  | .wgather c _ _ _ _ => some c
  | .wfill c _ _ _ _ => some c
  | .tld c _ _ => some c
  | .sts c _ _ _ _ => some c
  | .vst c _ _ _ _ _ _ => some c
  | .vsct c _ _ _ => some c
  | .drain c _ _ _ _ _ _ _ _ => some c
  | .statst c _ _ _ => some c
  | .layer c _ => some c
  | .loop c _ _ => some c
  | .lcset c _ _ => some c
  | .set c _ => some c
  | .wait c _ => some c
  | .setl c _ _ => some c
  | .waitl c _ _ _ => some c
  | .bar c => some c
  | .phase c _ => some c
  | .dma c _ _ => some c
  | .dwait c _ => some c
  | .end_ c => some c
  | .replay _ => none
  | .halt _ _ => none
  | .resume _ _ => none
  | .trailDrop _ => none
  | .dmaBatchFetch c => some c
  | .dmaCopy c _ => some c.toAt
  | .dmaGather c _ => some c.toAt
  | .dmaFeed c _ => some c.toAt
  | .dmaNop c => some c.toAt
  | .dmaDescComplete c => some c
  | .bucketRefill => none
  | .regulatedRequest _ _ => none
  | .bwrBucketWrite _ _ _ _ => none
  | .scrub _ => none
  | .bar2Access _ _ _ _ _ => none
  | .bar0BadAccess _ => none
  | .registerWrite _ _ _ => none
  | .rcRead _ _ => none
  | .pairLoRead _ _ => none
  | .pairLoWrite _ _ _ => none
  | .pairHiWrite _ _ _ => none
  | .frameStart _ _ _ _ => none
  | .frameEnd _ _ _ => none
  | .linePacket _ _ _ _ _ _ _ => none
  | .unmatchedPacket _ _ _ _ => none
  | .headerError _ => none
  | .deskew _ => none
  | .frameComplete _ => none
  | .frameLate _ => none
  | .sensorWriteBatch _ => none
  | .ispParamFetch _ => none
  | .scbXfer _ _ _ => none
  | .scbXferDone _ _ _ => none
  | .ibi _ => none
  | .memoryJob _ => none
  | .memoryJobDone _ => none
  | .accessUnit _ _ => none
  | .pictureOutput _ => none
  | .encodeJob _ _ => none
  | .sample _ => none
  | .waitExpired _ => none
  | .batchEmit _ => none
  | .batchTimeout _ => none
  | .semRead _ _ _ => none
  | .semRelease _ _ _ => none
  | .doorbell _ _ _ _ => none
  | .entryConsume _ => none
  | .entryStart _ _ => none
  | .entryTimeout _ _ => none
  | .completionDeliver _ => none
  | .msixTimer _ => none
  | .deadlock _ => none
  | .qmFlagSet _ _ => none
  | .qmFlagClr _ _ => none
  | .createQueue _ => none
  | .deleteQueue _ => none
  | .stopQueue _ => none
  | .resumeQueue _ => none
  | .cancel _ => none
  | .createContext _ => none
  | .destroyContext _ => none
  | .give _ => none
  | .adopt _ => none
  | .prepareOff _ _ => none
  | .restStopTest _ _ _ _ _ => none
  | .unfence _ => none
  | .unfenceTakesEffect _ => none
  | .fwStage _ _ => none
  | .fwActivate _ => none
  | .handoverBegin => none
  | .handoverSwitch _ => none
  | .actAborted => none
  | .fwCancel _ => none
  | .restoreFactory _ => none
  | .attest _ _ _ _ => none
  | .loadPatternPack _ _ => none
  | .attach _ _ => none
  | .reattach _ _ => none
  | .heartbeat _ => none
  | .heartbeatTimeout _ => none
  | .hostLinkDown _ => none
  | .hostLinkUp _ => none
  | .hostReset _ _ => none
  | .confirmationTest _ _ _ => none
  | .fieldTest _ _ _ => none
  | .fieldOverdue _ => none
  | .observedTimeout _ => none
  | .healthRecordWrite => none
  | .healthAgeUpdate => none
  | .telemetrySample _ => none
  | .estimate _ _ _ _ => none
  | .pmbusPoll _ => none
  | .telemetrySafeStep => none
  | .telemAck _ _ => none
  | .stepRaise => none
  | .boostStep => none
  | .droopTrip _ => none
  | .droopPersistence => none
  | .supplyWarn _ => none
  | .supplyRecover _ => none
  | .warnRamp => none
  | .supplyReset _ => none
  | .thermalSample _ => none
  | .thermalCeilingStep => none
  | .thermalTrip => none
  | .idleRetainEnter => none
  | .idleWake => none
  | .deep _ => none
  | .wake _ => none
  | .slew _ => none
  | .step _ => none
  | .eventEdge _ _ _ => none
  | .stampPop _ _ => none
  | .refPpsEdge _ => none
  | .refLost => none
  | .fsyncPulseStart _ => none
  | .fsyncPulseEnd _ => none
  | .ppsOutPulse => none
  | .syncOutMessage => none
  | .fabPortUp _ _ _ => none
  | .fabPortDown _ => none
  | .linkKeepalive _ => none
  | .link _ _ => none
  | .linkNak _ _ => none
  | .write _ _ => none
  | .flag _ _ => none
  | .ack _ _ => none
  | .nak _ _ => none
  | .hello _ _ => none
  | .helloSend => none
  | .beacon => none
  | .rootTimeout => none
  | .timeSync _ _ _ => none
  | .timeSyncSend _ => none
  | .timeReq _ _ _ _ => none
  | .timeRsp _ _ _ => none
  | .delayMeasure _ _ => none
  | .pruned _ _ => none
  | .join _ _ => none
  | .prune _ _ _ => none
  | .mcastJoin _ _ => none
  | .sendWrite _ => none
  | .sendFlag _ => none
  | .sendWriteFlag _ => none
  | .sendComplete _ => none
  | .resendTimeout _ => none
  | .fwLoad _ _ => none
  | .fwVerifyDone _ _ => none
  | .fwWatchdog _ _ => none
  | .qmCheck _ => none
  | .store _ _ _ _ => none
  | .read _ => none
  | .challenge _ => none
  | .verify _ _ _ _ => none
  | .challengeExpired => none
  | .rngRead _ => none
  | .coldReset _ => none
  | .warmReset => none
  | .boot _ => none
  | .refclkLoss => none
  | .validationDone _ => none
  | .startOfTransmission _ => none
  | .sensorBatchEnd _ _ => none
  | .doubledRefresh _ => none
  | .eccWindowEnd => none
  | .droopDetectorClear _ => none
  | .wakeComplete => none
  | .firmwareReady => none
  | .fabPortTrain _ => none
  | .packetCrcError _ _ => none

/-- The packet that a command carries. -/
def packet : Instr → Option FPkt
  | .stageWrite _ _ _ => none
  | .check _ => none
  | .apply _ _ _ => none
  | .commitCancel _ => none
  | .discard _ => none
  | .badCommand _ => none
  | .commitTakesEffect _ => none
  | .expired => none
  | .take _ => none
  | .snapReady _ => none
  | .snapDataRead _ => none
  | .bundleFetch _ => none
  | .icacheFill _ => none
  | .bundleDecode _ => none
  | .bundleRetire _ => none
  | .stallWatchdog _ _ => none
  | .nop _ _ => none
  | .add _ _ _ _ => none
  | .sub _ _ _ _ => none
  | .mul _ _ _ _ => none
  | .mulh _ _ _ _ => none
  | .and _ _ _ _ => none
  | .or _ _ _ _ => none
  | .xor _ _ _ _ => none
  | .shl _ _ _ _ => none
  | .shr _ _ _ _ => none
  | .sra _ _ _ _ => none
  | .min _ _ _ _ => none
  | .max _ _ _ _ => none
  | .minu _ _ _ _ => none
  | .maxu _ _ _ _ => none
  | .slt _ _ _ _ => none
  | .sltu _ _ _ _ => none
  | .seq _ _ _ _ => none
  | .addi _ _ _ _ => none
  | .andi _ _ _ _ => none
  | .ori _ _ _ _ => none
  | .xori _ _ _ _ => none
  | .shli _ _ _ _ => none
  | .shri _ _ _ _ => none
  | .srai _ _ _ _ => none
  | .slti _ _ _ _ => none
  | .li _ _ _ => none
  | .lih _ _ _ => none
  | .aadd _ _ _ _ => none
  | .aaddi _ _ _ _ => none
  | .amov _ _ _ => none
  | .mova _ _ _ => none
  | .br _ _ _ _ _ => none
  | .j _ _ => none
  | .jr _ _ => none
  | .mfs _ _ _ => none
  | .mts _ _ => none
  | .vadd _ _ => none
  | .vsub _ _ => none
  | .vmul _ _ => none
  | .vfma _ _ => none
  | .vmin _ _ => none
  | .vmax _ _ => none
  | .vabs _ _ => none
  | .vneg _ _ => none
  | .vand _ _ => none
  | .vor _ _ => none
  | .vxor _ _ => none
  | .vshl _ _ => none
  | .vshr _ _ => none
  | .vcmp _ _ _ => none
  | .vsel _ _ => none
  | .vmov _ _ => none
  | .vbcast _ _ => none
  | .vext _ _ => none
  | .viota _ _ => none
  | .plog _ _ _ => none
  | .pset _ _ _ => none
  | .vcvt _ _ _ _ _ => none
  | .vlut _ _ _ => none
  | .vred _ _ _ => none
  | .vwmax _ _ _ _ => none
  | .vwavg _ _ _ _ => none
  | .vboxdec _ _ _ => none
  | .vnms _ _ => none
  | .mstream _ _ _ _ _ _ _ _ _ => none
  | .mswap _ _ => none
  | .mclr _ _ _ _ _ => none
  | .mard _ _ _ _ _ => none
  | .mawr _ _ _ _ _ _ => none
  | .lds _ _ _ _ _ => none
  | .vld _ _ _ _ => none
  | .vgth _ _ _ _ => none
  | .srow _ _ _ _ _ _ _ _ => none
  | .wgather _ _ _ _ _ => none
  | .wfill _ _ _ _ _ => none
  | .tld _ _ _ => none
  | .sts _ _ _ _ _ => none
  | .vst _ _ _ _ _ _ _ => none
  | .vsct _ _ _ _ => none
  | .drain _ _ _ _ _ _ _ _ _ => none
  | .statst _ _ _ _ => none
  | .layer _ _ => none
  | .loop _ _ _ => none
  | .lcset _ _ _ => none
  | .set _ _ => none
  | .wait _ _ => none
  | .setl _ _ _ => none
  | .waitl _ _ _ _ => none
  | .bar _ => none
  | .phase _ _ => none
  | .dma _ _ _ => none
  | .dwait _ _ => none
  | .end_ _ => none
  | .replay _ => none
  | .halt _ _ => none
  | .resume _ _ => none
  | .trailDrop _ => none
  | .dmaBatchFetch _ => none
  | .dmaCopy _ _ => none
  | .dmaGather _ _ => none
  | .dmaFeed _ _ => none
  | .dmaNop _ => none
  | .dmaDescComplete _ => none
  | .bucketRefill => none
  | .regulatedRequest _ _ => none
  | .bwrBucketWrite _ _ _ _ => none
  | .scrub _ => none
  | .bar2Access _ _ _ _ _ => none
  | .bar0BadAccess _ => none
  | .registerWrite _ _ _ => none
  | .rcRead _ _ => none
  | .pairLoRead _ _ => none
  | .pairLoWrite _ _ _ => none
  | .pairHiWrite _ _ _ => none
  | .frameStart _ _ _ _ => none
  | .frameEnd _ _ _ => none
  | .linePacket _ _ _ _ _ _ _ => none
  | .unmatchedPacket _ _ _ _ => none
  | .headerError _ => none
  | .deskew _ => none
  | .frameComplete _ => none
  | .frameLate _ => none
  | .sensorWriteBatch _ => none
  | .ispParamFetch _ => none
  | .scbXfer _ _ _ => none
  | .scbXferDone _ _ _ => none
  | .ibi _ => none
  | .memoryJob _ => none
  | .memoryJobDone _ => none
  | .accessUnit _ _ => none
  | .pictureOutput _ => none
  | .encodeJob _ _ => none
  | .sample _ => none
  | .waitExpired _ => none
  | .batchEmit _ => none
  | .batchTimeout _ => none
  | .semRead _ _ _ => none
  | .semRelease _ _ _ => none
  | .doorbell _ _ _ _ => none
  | .entryConsume _ => none
  | .entryStart _ _ => none
  | .entryTimeout _ _ => none
  | .completionDeliver _ => none
  | .msixTimer _ => none
  | .deadlock _ => none
  | .qmFlagSet _ _ => none
  | .qmFlagClr _ _ => none
  | .createQueue _ => none
  | .deleteQueue _ => none
  | .stopQueue _ => none
  | .resumeQueue _ => none
  | .cancel _ => none
  | .createContext _ => none
  | .destroyContext _ => none
  | .give _ => none
  | .adopt _ => none
  | .prepareOff _ _ => none
  | .restStopTest _ _ _ _ _ => none
  | .unfence _ => none
  | .unfenceTakesEffect _ => none
  | .fwStage _ _ => none
  | .fwActivate _ => none
  | .handoverBegin => none
  | .handoverSwitch _ => none
  | .actAborted => none
  | .fwCancel _ => none
  | .restoreFactory _ => none
  | .attest _ _ _ _ => none
  | .loadPatternPack _ _ => none
  | .attach _ _ => none
  | .reattach _ _ => none
  | .heartbeat _ => none
  | .heartbeatTimeout _ => none
  | .hostLinkDown _ => none
  | .hostLinkUp _ => none
  | .hostReset _ _ => none
  | .confirmationTest _ _ _ => none
  | .fieldTest _ _ _ => none
  | .fieldOverdue _ => none
  | .observedTimeout _ => none
  | .healthRecordWrite => none
  | .healthAgeUpdate => none
  | .telemetrySample _ => none
  | .estimate _ _ _ _ => none
  | .pmbusPoll _ => none
  | .telemetrySafeStep => none
  | .telemAck _ _ => none
  | .stepRaise => none
  | .boostStep => none
  | .droopTrip _ => none
  | .droopPersistence => none
  | .supplyWarn _ => none
  | .supplyRecover _ => none
  | .warnRamp => none
  | .supplyReset _ => none
  | .thermalSample _ => none
  | .thermalCeilingStep => none
  | .thermalTrip => none
  | .idleRetainEnter => none
  | .idleWake => none
  | .deep _ => none
  | .wake _ => none
  | .slew _ => none
  | .step _ => none
  | .eventEdge _ _ _ => none
  | .stampPop _ _ => none
  | .refPpsEdge _ => none
  | .refLost => none
  | .fsyncPulseStart _ => none
  | .fsyncPulseEnd _ => none
  | .ppsOutPulse => none
  | .syncOutMessage => none
  | .fabPortUp _ _ _ => none
  | .fabPortDown _ => none
  | .linkKeepalive _ => none
  | .link _ k => some k
  | .linkNak _ k => some k
  | .write _ k => some k
  | .flag _ k => some k
  | .ack _ k => some k
  | .nak _ k => some k
  | .hello _ k => some k
  | .helloSend => none
  | .beacon => none
  | .rootTimeout => none
  | .timeSync _ k _ => some k
  | .timeSyncSend _ => none
  | .timeReq _ k _ _ => some k
  | .timeRsp _ k _ => some k
  | .delayMeasure _ _ => none
  | .pruned _ k => some k
  | .join _ k => some k
  | .prune _ _ _ => none
  | .mcastJoin _ _ => none
  | .sendWrite _ => none
  | .sendFlag _ => none
  | .sendWriteFlag _ => none
  | .sendComplete _ => none
  | .resendTimeout _ => none
  | .fwLoad _ _ => none
  | .fwVerifyDone _ _ => none
  | .fwWatchdog _ _ => none
  | .qmCheck _ => none
  | .store _ _ _ _ => none
  | .read _ => none
  | .challenge _ => none
  | .verify _ _ _ _ => none
  | .challengeExpired => none
  | .rngRead _ => none
  | .coldReset _ => none
  | .warmReset => none
  | .boot _ => none
  | .refclkLoss => none
  | .validationDone _ => none
  | .startOfTransmission _ => none
  | .sensorBatchEnd _ _ => none
  | .doubledRefresh _ => none
  | .eccWindowEnd => none
  | .droopDetectorClear _ => none
  | .wakeComplete => none
  | .firmwareReady => none
  | .fabPortTrain _ => none
  | .packetCrcError _ _ => none

/-- A command that can be sent names physical errors that can be, and carries a packet whose fields fit. -/
def Statement (i : Instr) : Prop :=
  i.wf = true → (∀ c, place i = some c → c.wf = true) ∧ (∀ k, packet i = some k → k.wf = true)

theorem of_none {i : Instr} (h : place i = none) (g : packet i = none) : Statement i := by
  intro _
  simp [h, g]

theorem of_place {i : Instr} {c : At} (h : place i = some c) (g : packet i = none) (w : i.wf = true → c.wf = true) :
    Statement i := by
  intro hw
  simp [h, g, w hw]

theorem of_packet {i : Instr} {k : FPkt} (h : place i = none) (g : packet i = some k) (w : i.wf = true → k.wf = true) :
    Statement i := by
  intro hw
  simp [h, g, w hw]

theorem stageWrite (p : Port) (off : BitVec 25) (v : Word) : Statement (.stageWrite p off v) := of_none rfl rfl
theorem check (p : Port) : Statement (.check p) := of_none rfl rfl
theorem apply (p : Port) (mode : CommitMode) (cam : Fin 32) : Statement (.apply p mode cam) := of_none rfl rfl
theorem commitCancel (p : Port) : Statement (.commitCancel p) := of_none rfl rfl
theorem discard (p : Port) : Statement (.discard p) := of_none rfl rfl
theorem badCommand (p : Port) : Statement (.badCommand p) := of_none rfl rfl
theorem commitTakesEffect (frame : Option (Fin 24)) : Statement (.commitTakesEffect frame) := of_none rfl rfl
theorem expired : Statement (.expired) := of_none rfl rfl
theorem take (p : Port) : Statement (.take p) := of_none rfl rfl
theorem snapReady (p : Port) : Statement (.snapReady p) := of_none rfl rfl
theorem snapDataRead (p : Port) : Statement (.snapDataRead p) := of_none rfl rfl
theorem bundleFetch (c : At) : Statement (.bundleFetch c) := of_place rfl rfl id
theorem icacheFill (c : At) : Statement (.icacheFill c) := of_place rfl rfl id
theorem bundleDecode (c : At) : Statement (.bundleDecode c) := of_place rfl rfl id
theorem bundleRetire (c : At) : Statement (.bundleRetire c) := of_place rfl rfl id
theorem stallWatchdog (leader : Fin 8) (cycles : Nat) : Statement (.stallWatchdog leader cycles) := of_none rfl rfl
theorem nop (_c : At) (_slot : Fin 6) : Statement (.nop _c _slot) := of_place rfl rfl id
theorem add (c : At) (sd sa sb : Fin 32) : Statement (.add c sd sa sb) := of_place rfl rfl id
theorem sub (c : At) (sd sa sb : Fin 32) : Statement (.sub c sd sa sb) := of_place rfl rfl id
theorem mul (c : At) (sd sa sb : Fin 32) : Statement (.mul c sd sa sb) := of_place rfl rfl id
theorem mulh (c : At) (sd sa sb : Fin 32) : Statement (.mulh c sd sa sb) := of_place rfl rfl id
theorem and (c : At) (sd sa sb : Fin 32) : Statement (.and c sd sa sb) := of_place rfl rfl id
theorem or (c : At) (sd sa sb : Fin 32) : Statement (.or c sd sa sb) := of_place rfl rfl id
theorem xor (c : At) (sd sa sb : Fin 32) : Statement (.xor c sd sa sb) := of_place rfl rfl id
theorem shl (c : At) (sd sa sb : Fin 32) : Statement (.shl c sd sa sb) := of_place rfl rfl id
theorem shr (c : At) (sd sa sb : Fin 32) : Statement (.shr c sd sa sb) := of_place rfl rfl id
theorem sra (c : At) (sd sa sb : Fin 32) : Statement (.sra c sd sa sb) := of_place rfl rfl id
theorem min (c : At) (sd sa sb : Fin 32) : Statement (.min c sd sa sb) := of_place rfl rfl id
theorem max (c : At) (sd sa sb : Fin 32) : Statement (.max c sd sa sb) := of_place rfl rfl id
theorem minu (c : At) (sd sa sb : Fin 32) : Statement (.minu c sd sa sb) := of_place rfl rfl id
theorem maxu (c : At) (sd sa sb : Fin 32) : Statement (.maxu c sd sa sb) := of_place rfl rfl id
theorem slt (c : At) (sd sa sb : Fin 32) : Statement (.slt c sd sa sb) := of_place rfl rfl id
theorem sltu (c : At) (sd sa sb : Fin 32) : Statement (.sltu c sd sa sb) := of_place rfl rfl id
theorem seq (c : At) (sd sa sb : Fin 32) : Statement (.seq c sd sa sb) := of_place rfl rfl id
theorem addi (c : At) (sd sa : Fin 32) (imm : BitVec 30) : Statement (.addi c sd sa imm) := of_place rfl rfl id
theorem andi (c : At) (sd sa : Fin 32) (imm : BitVec 30) : Statement (.andi c sd sa imm) := of_place rfl rfl id
theorem ori (c : At) (sd sa : Fin 32) (imm : BitVec 30) : Statement (.ori c sd sa imm) := of_place rfl rfl id
theorem xori (c : At) (sd sa : Fin 32) (imm : BitVec 30) : Statement (.xori c sd sa imm) := of_place rfl rfl id
theorem shli (c : At) (sd sa : Fin 32) (k : Fin 64) : Statement (.shli c sd sa k) := of_place rfl rfl id
theorem shri (c : At) (sd sa : Fin 32) (k : Fin 64) : Statement (.shri c sd sa k) := of_place rfl rfl id
theorem srai (c : At) (sd sa : Fin 32) (k : Fin 64) : Statement (.srai c sd sa k) := of_place rfl rfl id
theorem slti (c : At) (sd sa : Fin 32) (imm : BitVec 30) : Statement (.slti c sd sa imm) := of_place rfl rfl id
theorem li (c : At) (sd : Fin 32) (imm : BitVec 32) : Statement (.li c sd imm) := of_place rfl rfl id
theorem lih (c : At) (sd : Fin 32) (imm : BitVec 32) : Statement (.lih c sd imm) := of_place rfl rfl id
theorem aadd (c : At) (ad aa : Fin 16) (sb : Fin 32) : Statement (.aadd c ad aa sb) := of_place rfl rfl id
theorem aaddi (c : At) (ad aa : Fin 16) (imm : BitVec 32) : Statement (.aaddi c ad aa imm) := of_place rfl rfl id
theorem amov (c : At) (ad : Fin 16) (sb : Fin 32) : Statement (.amov c ad sb) := of_place rfl rfl id
theorem mova (c : At) (sd : Fin 32) (aa : Fin 16) : Statement (.mova c sd aa) := of_place rfl rfl id
theorem br (c : At) (sa sb : Fin 32) (cond : Cond) (off : BitVec 24) : Statement (.br c sa sb cond off) := of_place rfl rfl id
theorem j (c : At) (off : BitVec 24) : Statement (.j c off) := of_place rfl rfl id
theorem jr (c : At) (sa : Fin 32) : Statement (.jr c sa) := of_place rfl rfl id
theorem mfs (c : At) (sd : Fin 32) (x : Spec) : Statement (.mfs c sd x) := of_place rfl rfl id
theorem mts (c : At) (sb : Fin 32) : Statement (.mts c sb) := of_place rfl rfl id
theorem vadd (c : At) (x : VF) : Statement (.vadd c x) := of_place rfl rfl id
theorem vsub (c : At) (x : VF) : Statement (.vsub c x) := of_place rfl rfl id
theorem vmul (c : At) (x : VF) : Statement (.vmul c x) := of_place rfl rfl id
theorem vfma (c : At) (x : VF) : Statement (.vfma c x) := of_place rfl rfl id
theorem vmin (c : At) (x : VF) : Statement (.vmin c x) := of_place rfl rfl id
theorem vmax (c : At) (x : VF) : Statement (.vmax c x) := of_place rfl rfl id
theorem vabs (c : At) (x : VF) : Statement (.vabs c x) := of_place rfl rfl id
theorem vneg (c : At) (x : VF) : Statement (.vneg c x) := of_place rfl rfl id
theorem vand (c : At) (x : VF) : Statement (.vand c x) := of_place rfl rfl id
theorem vor (c : At) (x : VF) : Statement (.vor c x) := of_place rfl rfl id
theorem vxor (c : At) (x : VF) : Statement (.vxor c x) := of_place rfl rfl id
theorem vshl (c : At) (x : VF) : Statement (.vshl c x) := of_place rfl rfl id
theorem vshr (c : At) (x : VF) : Statement (.vshr c x) := of_place rfl rfl id
theorem vcmp (c : At) (x : VF) (o : VCmp) : Statement (.vcmp c x o) := of_place rfl rfl id
theorem vsel (c : At) (x : VF) : Statement (.vsel c x) := of_place rfl rfl id
theorem vmov (c : At) (x : VF) : Statement (.vmov c x) := of_place rfl rfl id
theorem vbcast (c : At) (x : VF) : Statement (.vbcast c x) := of_place rfl rfl id
theorem vext (c : At) (x : VF) : Statement (.vext c x) := of_place rfl rfl id
theorem viota (c : At) (x : VF) : Statement (.viota c x) := of_place rfl rfl id
theorem plog (c : At) (x : VF) (o : PLogOp) : Statement (.plog c x o) := of_place rfl rfl id
theorem pset (c : At) (x : VF) (b : Bool) : Statement (.pset c x b) := of_place rfl rfl id
theorem vcvt (c : At) (x : VF) (src : Fmt) (part : Fin 4) (scale : Int) : Statement (.vcvt c x src part scale) := of_place rfl rfl (fun h => (Bool.and_eq_true _ _ ▸ h).1)
theorem vlut (c : At) (x : VF) (tb : Fin 4) : Statement (.vlut c x tb) := of_place rfl rfl id
theorem vred (c : At) (x : VF) (o : RedOp) : Statement (.vred c x o) := of_place rfl rfl id
theorem vwmax (c : At) (x : VF) (k : Fin 8) (st : Fin 3) : Statement (.vwmax c x k st) := of_place rfl rfl id
theorem vwavg (c : At) (x : VF) (k : Fin 8) (st : Fin 3) : Statement (.vwavg c x k st) := of_place rfl rfl id
theorem vboxdec (c : At) (x : VF) (tb : Fin 4) : Statement (.vboxdec c x tb) := of_place rfl rfl id
theorem vnms (c : At) (x : VF) : Statement (.vnms c x) := of_place rfl rfl id
theorem mstream (c : At) (amask : BitVec 4) (add outl feed : Bool) (ent : Fin 1024) (sv : Fin 32) (ad : Fin 16) (se : Fin 32) : Statement (.mstream c amask add outl feed ent sv ad se) := of_place rfl rfl id
theorem mswap (c : At) (amask : BitVec 4) : Statement (.mswap c amask) := of_place rfl rfl id
theorem mclr (c : At) (amask : BitVec 4) (ent : Fin 1024) (sn : Fin 32) (fp : Bool) : Statement (.mclr c amask ent sn fp) := of_place rfl rfl id
theorem mard (c : At) (arr : Fin 4) (ent : Fin 1024) (vd : Fin 32) (half : Bool) : Statement (.mard c arr ent vd half) := of_place rfl rfl id
theorem mawr (c : At) (arr : Fin 4) (ent : Fin 1024) (va : Fin 32) (half fp : Bool) : Statement (.mawr c arr ent va half fp) := of_place rfl rfl id
theorem lds (c : At) (sd : Fin 32) (aa : Fin 16) (size : LdSize) (imm : BitVec 22) : Statement (.lds c sd aa size imm) := of_place rfl rfl id
theorem vld (c : At) (vd : Fin 32) (aa : Fin 16) (imm : BitVec 25) : Statement (.vld c vd aa imm) := of_place rfl rfl id
theorem vgth (c : At) (vd : Fin 32) (aa : Fin 16) (vb : Fin 32) : Statement (.vgth c vd aa vb) := of_place rfl rfl id
theorem srow (c : At) (amask : BitVec 4) (aa : Fin 16) (sr : Fin 32) (row : Fin 128) (fmt : Fmt) (kind : RowKind) (ba : Fin 4) : Statement (.srow c amask aa sr row fmt kind ba) := of_place rfl rfl id
theorem wgather (c : At) (amask : BitVec 4) (aa : Fin 16) (sp st : Fin 32) : Statement (.wgather c amask aa sp st) := of_place rfl rfl id
theorem wfill (c : At) (am as : Fin 16) (sm ss : Fin 32) : Statement (.wfill c am as sm ss) := of_place rfl rfl id
theorem tld (c : At) (tb : Fin 4) (aa : Fin 16) : Statement (.tld c tb aa) := of_place rfl rfl id
theorem sts (c : At) (sb : Fin 32) (aa : Fin 16) (size : Fin 4) (imm : BitVec 23) : Statement (.sts c sb aa size imm) := of_place rfl rfl id
theorem vst (c : At) (vb : Fin 32) (aa : Fin 16) (p : Fin 8) (pen : Bool) (w : StW) (imm : BitVec 19) : Statement (.vst c vb aa p pen w imm) := of_place rfl rfl id
theorem vsct (c : At) (vb : Fin 32) (aa : Fin 16) (vc : Fin 32) : Statement (.vsct c vb aa vc) := of_place rfl rfl id
theorem drain (c : At) (amask : BitVec 4) (ent : Fin 1024) (sn : Fin 32) (ad ao : Fin 16) (stats first last : Bool) : Statement (.drain c amask ent sn ad ao stats first last) := of_place rfl rfl id
theorem statst (c : At) (slot : Fin 1024) (sn : Fin 32) (aa : Fin 16) : Statement (.statst c slot sn aa) := of_place rfl rfl id
theorem layer (c : At) (nr : Bool) : Statement (.layer c nr) := of_place rfl rfl id
theorem loop (c : At) (sn : Fin 32) (end_ : BitVec 20) : Statement (.loop c sn end_) := of_place rfl rfl id
theorem lcset (c : At) (level : Fin 4) (sn : Fin 32) : Statement (.lcset c level sn) := of_place rfl rfl id
theorem set (c : At) (sn : Fin 32) : Statement (.set c sn) := of_place rfl rfl id
theorem wait (c : At) (sn : Fin 32) : Statement (.wait c sn) := of_place rfl rfl id
theorem setl (c : At) (lf : BitVec 8) (sr : Fin 32) : Statement (.setl c lf sr) := of_place rfl rfl id
theorem waitl (c : At) (lf : BitVec 8) (sr sn : Fin 32) : Statement (.waitl c lf sr sn) := of_place rfl rfl id
theorem bar (c : At) : Statement (.bar c) := of_place rfl rfl id
theorem phase (c : At) (num : BitVec 8) : Statement (.phase c num) := of_place rfl rfl id
theorem dma (c : At) (aa : Fin 16) (sn : Fin 32) : Statement (.dma c aa sn) := of_place rfl rfl id
theorem dwait (c : At) (sn : Fin 32) : Statement (.dwait c sn) := of_place rfl rfl id
theorem end_ (c : At) : Statement (.end_ c) := of_place rfl rfl id
theorem replay (leader : Fin 8) : Statement (.replay leader) := of_none rfl rfl
theorem halt (p : Port) (core : Fin 8) : Statement (.halt p core) := of_none rfl rfl
theorem resume (p : Port) (core : Fin 8) : Statement (.resume p core) := of_none rfl rfl
theorem trailDrop (core : Fin 8) : Statement (.trailDrop core) := of_none rfl rfl
theorem dmaBatchFetch (c : At) : Statement (.dmaBatchFetch c) := of_place rfl rfl id
theorem dmaCopy (c : DmaAt) (k : Nat) : Statement (.dmaCopy c k) := of_place rfl rfl id
theorem dmaGather (c : DmaAt) (k : Nat) : Statement (.dmaGather c k) := of_place rfl rfl id
theorem dmaFeed (c : DmaAt) (k : Nat) : Statement (.dmaFeed c k) := of_place rfl rfl id
theorem dmaNop (c : DmaAt) : Statement (.dmaNop c) := of_place rfl rfl id
theorem dmaDescComplete (c : At) : Statement (.dmaDescComplete c) := of_place rfl rfl id
theorem bucketRefill : Statement (.bucketRefill) := of_none rfl rfl
theorem regulatedRequest (core : Fin 8) (cycles : Nat) : Statement (.regulatedRequest core cycles) := of_none rfl rfl
theorem bwrBucketWrite (p : Port) (core : Option (Fin 8)) (burst : Bool) (v : Word) : Statement (.bwrBucketWrite p core burst v) := of_none rfl rfl
theorem scrub (fixed : List Addr) : Statement (.scrub fixed) := of_none rfl rfl
theorem bar2Access (p : Port) (off : BitVec 48) (data : Option (List Byte)) (len : BitVec 16) (ph : Phys) : Statement (.bar2Access p off data len ph) := of_none rfl rfl
theorem bar0BadAccess (p : Port) : Statement (.bar0BadAccess p) := of_none rfl rfl
theorem registerWrite (p : Port) (off : BitVec 25) (v : Word) : Statement (.registerWrite p off v) := of_none rfl rfl
theorem rcRead (p : Port) (off : BitVec 25) : Statement (.rcRead p off) := of_none rfl rfl
theorem pairLoRead (p : Port) (off : BitVec 25) : Statement (.pairLoRead p off) := of_none rfl rfl
theorem pairLoWrite (p : Port) (off : BitVec 25) (v : Word) : Statement (.pairLoWrite p off v) := of_none rfl rfl
theorem pairHiWrite (p : Port) (off : BitVec 25) (v : Word) : Statement (.pairHiWrite p off v) := of_none rfl rfl
theorem frameStart (p : Fin 24) (vc : Fin 16) (fn : BitVec 16) (corr : Bool) : Statement (.frameStart p vc fn corr) := of_none rfl rfl
theorem frameEnd (p : Fin 24) (vc : Fin 16) (corr : Bool) : Statement (.frameEnd p vc corr) := of_none rfl rfl
theorem linePacket (p : Fin 24) (vc : Fin 16) (dt : Fin 64) (wire : List Byte) (crc corr full : Bool) : Statement (.linePacket p vc dt wire crc corr full) := of_none rfl rfl
theorem unmatchedPacket (p : Fin 24) (vc : Fin 16) (dt : Fin 64) (corr : Bool) : Statement (.unmatchedPacket p vc dt corr) := of_none rfl rfl
theorem headerError (p : Fin 24) : Statement (.headerError p) := of_none rfl rfl
theorem deskew (i : Fin 12) : Statement (.deskew i) := of_none rfl rfl
theorem frameComplete (n : Fin 32) : Statement (.frameComplete n) := of_none rfl rfl
theorem frameLate (n : Fin 32) : Statement (.frameLate n) := of_none rfl rfl
theorem sensorWriteBatch (n : Fin 32) : Statement (.sensorWriteBatch n) := of_none rfl rfl
theorem ispParamFetch (n : Fin 32) : Statement (.ispParamFetch n) := of_none rfl rfl
theorem scbXfer (p : Port) (j : Fin 12) (v : Word) : Statement (.scbXfer p j v) := of_none rfl rfl
theorem scbXferDone (j : Fin 12) (nack : Bool) (v : Word) : Statement (.scbXferDone j nack v) := of_none rfl rfl
theorem ibi (j : Fin 12) : Statement (.ibi j) := of_none rfl rfl
theorem memoryJob (m : Fin 4) : Statement (.memoryJob m) := of_none rfl rfl
theorem memoryJobDone (m : Fin 4) : Statement (.memoryJobDone m) := of_none rfl rfl
theorem accessUnit (n : Fin 64) (au : Option AuPic) : Statement (.accessUnit n au) := of_none rfl rfl
theorem pictureOutput (n : Fin 64) : Statement (.pictureOutput n) := of_none rfl rfl
theorem encodeJob (n : Fin 16) (coded : List Byte) : Statement (.encodeJob n coded) := of_none rfl rfl
theorem sample (n : Fin 64) : Statement (.sample n) := of_none rfl rfl
theorem waitExpired (n : Fin 64) : Statement (.waitExpired n) := of_none rfl rfl
theorem batchEmit (n : Fin 64) : Statement (.batchEmit n) := of_none rfl rfl
theorem batchTimeout (n : Fin 64) : Statement (.batchTimeout n) := of_none rfl rfl
theorem semRead (p : Port) (n : Fin 64) (both : Bool) : Statement (.semRead p n both) := of_none rfl rfl
theorem semRelease (p : Port) (n : Fin 64) (v : Word) : Statement (.semRelease p n v) := of_none rfl rfl
theorem doorbell (p : Port) (q : Fin 65536) (v : Dword) (whole : Bool) : Statement (.doorbell p q v whole) := of_none rfl rfl
theorem entryConsume (q : Fin 65536) : Statement (.entryConsume q) := of_none rfl rfl
theorem entryStart (q : Fin 65536) (leader : Fin 8) : Statement (.entryStart q leader) := of_none rfl rfl
theorem entryTimeout (q : Fin 65536) (count : Word) : Statement (.entryTimeout q count) := of_none rfl rfl
theorem completionDeliver (q : Fin 65536) : Statement (.completionDeliver q) := of_none rfl rfl
theorem msixTimer (q : Fin 65536) : Statement (.msixTimer q) := of_none rfl rfl
theorem deadlock (qs : List (Fin 65536)) : Statement (.deadlock qs) := of_none rfl rfl
theorem qmFlagSet (p : Port) (v : FlagSet) : Statement (.qmFlagSet p v) := of_none rfl rfl
theorem qmFlagClr (_p : Port) (v : Word) : Statement (.qmFlagClr _p v) := of_none rfl rfl
theorem createQueue (p : Port) : Statement (.createQueue p) := of_none rfl rfl
theorem deleteQueue (p : Port) : Statement (.deleteQueue p) := of_none rfl rfl
theorem stopQueue (p : Port) : Statement (.stopQueue p) := of_none rfl rfl
theorem resumeQueue (p : Port) : Statement (.resumeQueue p) := of_none rfl rfl
theorem cancel (p : Port) : Statement (.cancel p) := of_none rfl rfl
theorem createContext (p : Port) : Statement (.createContext p) := of_none rfl rfl
theorem destroyContext (p : Port) : Statement (.destroyContext p) := of_none rfl rfl
theorem give (p : Port) : Statement (.give p) := of_none rfl rfl
theorem adopt (p : Port) : Statement (.adopt p) := of_none rfl rfl
theorem prepareOff (p : Port) (flashOk : Bool) : Statement (.prepareOff p flashOk) := of_none rfl rfl
theorem restStopTest (bad : List (Fin 48)) (hamper repeated : Bool) (void : List (Fin 4)) (writeOk : Bool) : Statement (.restStopTest bad hamper repeated void writeOk) := of_none rfl rfl
theorem unfence (p : Port) : Statement (.unfence p) := of_none rfl rfl
theorem unfenceTakesEffect (u : Fin 48) : Statement (.unfenceTakesEffect u) := of_none rfl rfl
theorem fwStage (p : Port) (ph : Phys) : Statement (.fwStage p ph) := of_none rfl rfl
theorem fwActivate (p : Port) : Statement (.fwActivate p) := of_none rfl rfl
theorem handoverBegin : Statement (.handoverBegin) := of_none rfl rfl
theorem handoverSwitch (vpp : Bool) : Statement (.handoverSwitch vpp) := of_none rfl rfl
theorem actAborted : Statement (.actAborted) := of_none rfl rfl
theorem fwCancel (p : Port) : Statement (.fwCancel p) := of_none rfl rfl
theorem restoreFactory (p : Port) : Statement (.restoreFactory p) := of_none rfl rfl
theorem attest (p : Port) (bad : List Nat) (corr : List (Nat × Nat × Nat)) (rnd : BitVec 256) : Statement (.attest p bad corr rnd) := of_none rfl rfl
theorem loadPatternPack (p : Port) (ph : Phys) : Statement (.loadPatternPack p ph) := of_none rfl rfl
theorem attach (p : Port) (abi : BitVec 16) : Statement (.attach p abi) := of_none rfl rfl
theorem reattach (p : Port) (abi : BitVec 16) : Statement (.reattach p abi) := of_none rfl rfl
theorem heartbeat (p : Port) : Statement (.heartbeat p) := of_none rfl rfl
theorem heartbeatTimeout (p : Port) : Statement (.heartbeatTimeout p) := of_none rfl rfl
theorem hostLinkDown (p : Port) : Statement (.hostLinkDown p) := of_none rfl rfl
theorem hostLinkUp (p : Port) : Statement (.hostLinkUp p) := of_none rfl rfl
theorem hostReset (p : Port) (v : Word) : Statement (.hostReset p v) := of_none rfl rfl
theorem confirmationTest (u : Fin 48) (r : TestEnd) (temp : Int) : Statement (.confirmationTest u r temp) := of_none rfl rfl
theorem fieldTest (u : Fin 48) (r : TestEnd) (temp : Int) : Statement (.fieldTest u r temp) := of_none rfl rfl
theorem fieldOverdue (u : Fin 48) : Statement (.fieldOverdue u) := of_none rfl rfl
theorem observedTimeout (u : Fin 48) : Statement (.observedTimeout u) := of_none rfl rfl
theorem healthRecordWrite : Statement (.healthRecordWrite) := of_none rfl rfl
theorem healthAgeUpdate : Statement (.healthAgeUpdate) := of_none rfl rfl
theorem telemetrySample (readings : List (Option (Nat × Nat))) : Statement (.telemetrySample readings) := of_none rfl rfl
theorem estimate (comp : List Nat) (mem links sense : Nat) : Statement (.estimate comp mem links sense) := of_none rfl rfl
theorem pmbusPoll (faults : BitVec 8) : Statement (.pmbusPoll faults) := of_none rfl rfl
theorem telemetrySafeStep : Statement (.telemetrySafeStep) := of_none rfl rfl
theorem telemAck (p : Port) (v : Word) : Statement (.telemAck p v) := of_none rfl rfl
theorem stepRaise : Statement (.stepRaise) := of_none rfl rfl
theorem boostStep : Statement (.boostStep) := of_none rfl rfl
theorem droopTrip (det : Fin 16) : Statement (.droopTrip det) := of_none rfl rfl
theorem droopPersistence : Statement (.droopPersistence) := of_none rfl rfl
theorem supplyWarn (rail : Fin 4) : Statement (.supplyWarn rail) := of_none rfl rfl
theorem supplyRecover (rail : Fin 4) : Statement (.supplyRecover rail) := of_none rfl rfl
theorem warnRamp : Statement (.warnRamp) := of_none rfl rfl
theorem supplyReset (rail : Fin 4) : Statement (.supplyReset rail) := of_none rfl rfl
theorem thermalSample (readings : List Int) : Statement (.thermalSample readings) := of_none rfl rfl
theorem thermalCeilingStep : Statement (.thermalCeilingStep) := of_none rfl rfl
theorem thermalTrip : Statement (.thermalTrip) := of_none rfl rfl
theorem idleRetainEnter : Statement (.idleRetainEnter) := of_none rfl rfl
theorem idleWake : Statement (.idleWake) := of_none rfl rfl
theorem deep (p : Port) : Statement (.deep p) := of_none rfl rfl
theorem wake (_p : Port) : Statement (.wake _p) := of_none rfl rfl
theorem slew (p : Port) : Statement (.slew p) := of_none rfl rfl
theorem step (p : Port) : Statement (.step p) := of_none rfl rfl
theorem eventEdge (e : Fin 8) (sub : Fin 8) (fall : Bool) : Statement (.eventEdge e sub fall) := of_none rfl rfl
theorem stampPop (p : Port) (e : Fin 9) : Statement (.stampPop p e) := of_none rfl rfl
theorem refPpsEdge (sub : Fin 8) : Statement (.refPpsEdge sub) := of_none rfl rfl
theorem refLost : Statement (.refLost) := of_none rfl rfl
theorem fsyncPulseStart (n : Fin 24) : Statement (.fsyncPulseStart n) := of_none rfl rfl
theorem fsyncPulseEnd (n : Fin 24) : Statement (.fsyncPulseEnd n) := of_none rfl rfl
theorem ppsOutPulse : Statement (.ppsOutPulse) := of_none rfl rfl
theorem syncOutMessage : Statement (.syncOutMessage) := of_none rfl rfl
theorem fabPortUp (p : Fin 4) (width : Fin 3) (gen : Bool) : Statement (.fabPortUp p width gen) := of_none rfl rfl
theorem fabPortDown (p : Fin 4) : Statement (.fabPortDown p) := of_none rfl rfl
theorem linkKeepalive (p : Fin 4) : Statement (.linkKeepalive p) := of_none rfl rfl
theorem link (p : Fin 4) (k : FPkt) : Statement (.link p k) := of_packet rfl rfl id
theorem linkNak (p : Fin 4) (k : FPkt) : Statement (.linkNak p k) := of_packet rfl rfl id
theorem write (p : Fin 4) (k : FPkt) : Statement (.write p k) := of_packet rfl rfl id
theorem flag (p : Fin 4) (k : FPkt) : Statement (.flag p k) := of_packet rfl rfl id
theorem ack (p : Fin 4) (k : FPkt) : Statement (.ack p k) := of_packet rfl rfl id
theorem nak (p : Fin 4) (k : FPkt) : Statement (.nak p k) := of_packet rfl rfl id
theorem hello (p : Fin 4) (k : FPkt) : Statement (.hello p k) := of_packet rfl rfl id
theorem helloSend : Statement (.helloSend) := of_none rfl rfl
theorem beacon : Statement (.beacon) := of_none rfl rfl
theorem rootTimeout : Statement (.rootTimeout) := of_none rfl rfl
theorem timeSync (p : Fin 4) (k : FPkt) (sub : Fin 8) : Statement (.timeSync p k sub) := of_packet rfl rfl id
theorem timeSyncSend (sub : Fin 8) : Statement (.timeSyncSend sub) := of_none rfl rfl
theorem timeReq (p : Fin 4) (k : FPkt) (subIn subOut : Fin 8) : Statement (.timeReq p k subIn subOut) := of_packet rfl rfl id
theorem timeRsp (p : Fin 4) (k : FPkt) (sub : Fin 8) : Statement (.timeRsp p k sub) := of_packet rfl rfl id
theorem delayMeasure (p : Fin 4) (sub : Fin 8) : Statement (.delayMeasure p sub) := of_none rfl rfl
theorem pruned (p : Fin 4) (k : FPkt) : Statement (.pruned p k) := of_packet rfl rfl id
theorem join (p : Fin 4) (k : FPkt) : Statement (.join p k) := of_packet rfl rfl id
theorem prune (group : Fin 256) (port : Fin 4) (told : List (Fin 4096)) : Statement (.prune group port told) := of_none rfl rfl
theorem mcastJoin (p : Port) (group : Fin 256) : Statement (.mcastJoin p group) := of_none rfl rfl
theorem sendWrite (r : Fin 16) : Statement (.sendWrite r) := of_none rfl rfl
theorem sendFlag (r : Fin 16) : Statement (.sendFlag r) := of_none rfl rfl
theorem sendWriteFlag (r : Fin 16) : Statement (.sendWriteFlag r) := of_none rfl rfl
theorem sendComplete (r : Fin 16) : Statement (.sendComplete r) := of_none rfl rfl
theorem resendTimeout (r : Fin 16) : Statement (.resendTimeout r) := of_none rfl rfl
theorem fwLoad (p : Port) (v : Word) : Statement (.fwLoad p v) := of_none rfl rfl
theorem fwVerifyDone (ph : Phys) (vpp : Bool) : Statement (.fwVerifyDone ph vpp) := of_none rfl rfl
theorem fwWatchdog (core : Fin 6) (same : Bool) : Statement (.fwWatchdog core same) := of_none rfl rfl
theorem qmCheck (same : Bool) : Statement (.qmCheck same) := of_none rfl rfl
theorem store (p : Port) (bad : List Nat) (corr : List (Nat × Nat × Nat)) (flashOk : Bool) : Statement (.store p bad corr flashOk) := of_none rfl rfl
theorem read (p : Port) : Statement (.read p) := of_none rfl rfl
theorem challenge (src : Option Port) : Statement (.challenge src) := of_none rfl rfl
theorem verify (src : Option Port) (slot : Fin 4) (ph : Phys) (seed : BitVec 256) : Statement (.verify src slot ph seed) := of_none rfl rfl
theorem challengeExpired : Statement (.challengeExpired) := of_none rfl rfl
theorem rngRead (p : Port) : Statement (.rngRead p) := of_none rfl rfl
theorem coldReset (aon : Bool) : Statement (.coldReset aon) := of_none rfl rfl
theorem warmReset : Statement (.warmReset) := of_none rfl rfl
theorem boot (b : BootIn) : Statement (.boot b) := of_none rfl rfl
theorem refclkLoss : Statement (.refclkLoss) := of_none rfl rfl
theorem validationDone (p : Port) : Statement (.validationDone p) := of_none rfl rfl
theorem startOfTransmission (p : Fin 24) : Statement (.startOfTransmission p) := of_none rfl rfl
theorem sensorBatchEnd (j : Fin 12) (skipped : List Nat) : Statement (.sensorBatchEnd j skipped) := of_none rfl rfl
theorem doubledRefresh (on : Bool) : Statement (.doubledRefresh on) := of_none rfl rfl
theorem eccWindowEnd : Statement (.eccWindowEnd) := of_none rfl rfl
theorem droopDetectorClear (det : Fin 16) : Statement (.droopDetectorClear det) := of_none rfl rfl
theorem wakeComplete : Statement (.wakeComplete) := of_none rfl rfl
theorem firmwareReady : Statement (.firmwareReady) := of_none rfl rfl
theorem fabPortTrain (p : Fin 4) : Statement (.fabPortTrain p) := of_none rfl rfl
theorem packetCrcError (p : Fin 4) (k : Option FPkt) : Statement (.packetCrcError p k) := of_none rfl rfl

end Sys2Proof.Laws.Shape
end

