-- ==== Sys2Proof/Tests/Slice0.lean ====
section
/-! SUPPORT. Tests: the checks of WellFormed refuse ill-formed commands, small steps on small states, and for each statement
with hypotheses states and operands that meet them. The expected results are worked out by hand from spec/. -/

namespace Sys2Proof.Tests
set_option Elab.async false

open Sys2Proof.Machine Sys2Proof.Safety

/-! ### Helpers -/

def le4 (x : Nat) : List Nat := [x % 256, x / 256 % 256, x / 65536 % 256, x / 16777216 % 256]
def rw (l : List Nat) : List Byte := (l.flatMap le4).map (BitVec.ofNat 8)
def putList (m : Tbl Byte) (a : Nat) (l : List Byte) : Tbl Byte :=
  ((List.range l.length).zip l).foldl (fun (m : Tbl Byte) (x : Nat × Byte) => Tbl.put 0 m (a + x.1) x.2) m
/-- A bundle that holds slot operations, each in its slot (Table 4.2); the state whose cores have it in issue, and a step of one
operation on it. -/
def bundleOf (l : List Instr) : BitVec 256 :=
  l.foldl (fun (b : BitVec 256) (i : Instr) => match slotWord i with
    | some w => b ||| (BitVec.ofNat 256 w.bits <<< ([0, 48, 104, 144, 184, 224].getD w.slot 0))
    | none => b) 0
def hold (l : List Instr) (s : State) : State :=
  { s with dev := { s.dev with cores := s.dev.cores.map (fun (e : Nat × Core) =>
      (e.1, { e.2 with cur := e.2.cur.map (fun b => { b with q := { b.q with bits := bundleOf l } }) })) } }
def runs (i : Instr) (s : State) : Host.Outcome State Fault Refusal := exec i (hold [i] s)
/-- Each of the operations can be sent on a bundle of its own, where `p` holds. -/
abbrev Each (l : List Instr) (s : State) (p : Instr → State → Prop) : Prop := ∀ i ∈ l, Sent i (hold [i] s) ∧ p i (hold [i] s)
def memOf (l : List (Nat × List Nat)) : Tbl Byte := l.foldl (fun (m : Tbl Byte) (e : Nat × List Nat) => putList m e.1 (rw e.2)) []
def isOk {ε α : Type} : Except ε α → Bool
  | .ok _ => true
  | .error _ => false
def okAnd {ε α : Type} (x : Except ε α) (p : α → Bool) : Bool :=
  match x with
  | .ok a => p a
  | .error _ => false
/-- A field of the device that a command leaves, where it answers a next state. -/
def left? {α : Type} (o : Host.Outcome State Fault Refusal) (f : Dev → α) : Option α :=
  match o with
  | .next t => some (f t.dev)
  | _ => none

/-! ### Well-formedness: one ill-formed term for each check -/

def badPhys : At := ⟨0, { bad := [2 ^ 48] }⟩
def pkt : FPkt := { ty := 0x10, lseq := 3, lack := 65533, credReq := 4, credRsp := 3, dst := 2, src := 9, addr := 0x4004, eseq := 65535, ring := 1, payload := [1, 2, 3], start := true }

theorem test_wf_phys_address : (Instr.add badPhys 1 2 3).wf = false ∧ (Instr.add ⟨0, { bad := [2 ^ 48 - 8] }⟩ 1 2 3).wf = true := by decide
theorem test_wf_phys_unit : (Instr.bundleFetch ⟨0, { corr := [(50, 1, 0)] }⟩).wf = false ∧ (Instr.bundleFetch ⟨0, { corr := [(49, 1, 0)] }⟩).wf = true := by decide
theorem test_wf_vcvt_scale : (Instr.vcvt ⟨0, {}⟩ { vd := 1, va := 1, vb := 0, vc := 0, et := .int8 } .fp32 0 128).wf = false := by decide
theorem test_wf_scrub : (Instr.scrub [33]).wf = false ∧ (Instr.scrub [64]).wf = true := by decide
theorem test_wf_bar2 : (Instr.bar2Access .a 0 (some []) 0 {}).wf = false ∧ (Instr.bar2Access .a 0 none 4097 {}).wf = false ∧
    (Instr.bar2Access .a 0 none 4096 {}).wf = true := by decide
theorem test_wf_bar2_end : (Instr.bar2Access .a (2 ^ 32 - 4) none 5 {}).wf = false ∧ (Instr.bar2Access .a (2 ^ 32 - 4) none 4 {}).wf = true := by decide
theorem test_wf_bar2_phys : (Instr.bar2Access .a 0 none 4 { bad := [2 ^ 48] }).wf = false := by decide
theorem test_wf_line (l : List Byte) (h : l.length = 65536) : (Instr.linePacket 0 0 0 l false false false).wf = false := by
  show decide (l.length < 65536) = false
  rw [h]; rfl
theorem test_wf_picture : (Instr.accessUnit 0 (some { pic := { w := 2, h := 1, y := [[1]] }, crop := ⟨0, 0, 2, 1⟩, key := true, slots := 1, order := 0 })).wf = false := by decide
theorem test_wf_crop : (Instr.accessUnit 0 (some { pic := { w := 1, h := 1, y := [[1]] }, crop := ⟨1, 0, 1, 1⟩, key := true, slots := 1, order := 0 })).wf = false := by decide
theorem test_wf_coded (l : List Byte) (h : l.length = 4294967296) : (Instr.encodeJob 0 l).wf = false := by
  show decide (l.length < 4294967296) = false
  rw [h]; rfl
theorem test_wf_deadlock : (Instr.deadlock []).wf = false := by decide
theorem test_wf_temperature : (Instr.fieldTest 0 .pass 32768).wf = false ∧ (Instr.confirmationTest 0 .pass (-32769)).wf = false := by decide
theorem test_wf_pattern : (Instr.fieldTest 0 (.fail (2 ^ 32)) 0).wf = false := by decide
theorem test_wf_readings : (Instr.telemetrySample []).wf = false ∧ (Instr.estimate [1] 0 0 0).wf = false ∧
    (Instr.thermalSample (List.replicate 19 0)).wf = false ∧ (Instr.thermalSample (List.replicate 20 40000)).wf = false := by decide
theorem test_wf_packet : (Instr.write 0 { pkt with dst := 4096 }).wf = false ∧ (Instr.write 0 { pkt with lseq := 65536 }).wf = false ∧
    (Instr.ack 0 { pkt with ring := 16 }).wf = false ∧ (Instr.write 0 pkt).wf = true := by decide
theorem test_wf_packet_crc : (Instr.packetCrcError 0 (some { pkt with ty := 256 })).wf = false ∧ (Instr.packetCrcError 0 none).wf = true := by decide

/-! ### Cores: states -/

def c0 : At := ⟨0, {}⟩
def core0Base : Nat := 0x2100000000
def vOf (w : Nat) (l : List Nat) : VReg := BitVec.ofNat 4096 ((l.zip (List.range l.length)).foldl (fun (x : Nat) (e : Nat × Nat) => x + e.1 * 2 ^ (w * e.2)) 0)
def view0 : View :=
  { s := [(1, 5), (2, 0xFFFFFFFFFFFFFFFF), (3, 3), (4, 1024), (5, 0x8000000000000001), (31, 32)]
    a := [(1, BitVec.ofNat 48 (core0Base + 0x1000)), (2, 0x10000), (3, 0xFFFFFFFFFFFF), (4, BitVec.ofNat 48 (core0Base + 0x1040))]
    v := [(1, vOf 8 [1, 2, 0x80, 0xFF]), (2, vOf 8 [1, 0xFE, 0xFF, 2]), (4, vOf 32 [0x3F800000, 0x40000000])]
    p := [(0, 5), (1, BitVec.ofNat 512 (2 ^ 511 + 1)), (2, 0xFF)] }
def job0 : Job := { members := [0], ctx := 3, queue := 2, count := 1, codeLen := 1024 }
def core0 (v : View) : Core := { gang := some 0, cur := some { q := ⟨0, 0, 0, true⟩, view := v, issued := 8#6 }, s := v.s, a := v.a, v := v.v, p := v.p }
/-- Core 0 runs alone with a bundle in issue whose load has issued; `m` is memory. -/
def runWith (f : Core → Core) (m : Tbl Byte) : State := { dev := { cores := [(0, f (core0 view0))], jobs := [(0, job0)], mem := m } }
def run0 : State := runWith id []
/-- The same with no slot issued. -/
def runL (f : Core → Core) (m : Tbl Byte) : State := runWith (fun c => f { c with cur := some { q := ⟨0, 0, 0, true⟩, view := view0 } }) m
def runLoop : State := runWith (fun c => { c with loops := [⟨2, 7⟩, ⟨3, 5⟩], lc := [(0, 4), (1, 9)] }) []
def runTab : State := runWith (fun c => { c with tb := [(0, { x0 := 0, ls := -4, t := List.replicate 256 0x3F800000 })] }) []
def vf (et : Fmt) : VF := { vd := 3, va := 1, vb := 2, vc := 4, et := et }

/-! ### Cores: steps -/

theorem test_add_wraps : left? (runs (.add c0 6 2 1) run0) (fun d => (d.core 0).view.rs 6) = some 4 := by decide +kernel
theorem test_write_to_s0_is_discarded : left? (runs (.add c0 0 2 1) run0) (fun d => (d.core 0).view.rs 0) = some 0 := by decide +kernel
theorem test_sra_of_a_negative : left? (runs (.srai c0 6 5 63) run0) (fun d => (d.core 0).view.rs 6) = some 0xFFFFFFFFFFFFFFFF := by decide +kernel
theorem test_aadd_wraps : left? (runs (.aadd c0 5 3 1) run0) (fun d => (d.core 0).view.ra 5) = some 4 := by decide +kernel
theorem test_vmin_is_signed : left? (runs (.vmin c0 (vf .int32)) (runWith (fun c => { c with cur := some { q := ⟨0, 0, 0, true⟩, view := { view0 with v := [(1, 0xFFFFFFFF00000001), (2, 1)] } } }) []))
    (fun d => ((d.core 0).view.rv 3).map (fun y => (elem 32 0 y, elem 32 1 y))) = some (some (1, 0xFFFFFFFF)) := by decide +kernel
theorem test_second_issue_is_ignored : left? (runs (.add c0 6 2 1) (runWith (fun c => c.mark 0) [])) (fun d => (d.core 0).view.rs 6) = some 0 := by
  decide +kernel
theorem test_lds_sign_extends : left? (runs (.lds c0 6 1 .i16 0) (runL id (memOf [(core0Base + 0x1000, [0x00FF8000])]))) (fun d => (d.core 0).view.rs 6) = some 0xFFFFFFFFFFFF8000 := by
  decide +kernel

/-! ### Slot words

The example of the spec (R47 to R49): MSTREAM A, MSWAP, MSTREAM B. -/

def exA : Instr := .mstream c0 15 false false false 0 7 3 0
def exB : Instr := .mstream c0 15 true false false 0 7 5 0
theorem test_slot_words_of_the_example :
    (slotWord (.mstream c0 15 false false false 0 7 3 0)).map (·.bits) = some 0x00338003C1 ∧
    (slotWord (.mswap c0 15)).map (·.bits) = some 0x3C2 ∧
    (slotWord (.mstream c0 15 true false false 0 7 5 0)).map (·.bits) = some 0x00538007C1 := by decide +kernel

def scalarOps : List Instr :=
  scalarTable.map (fun e => e.1 c0 6 1 2) ++ immediateTable.map (fun e => e.1 c0 31 1 0x3FFFFFFF) ++ shiftTable.map (fun e => e.1 c0 6 5 63) ++
  [.li c0 6 0xFFFFFFFF, .lih c0 6 0x80000000]
def addressOps : List Instr :=
  [.aadd c0 15 3 1, .aaddi c0 5 3 0xFFFFFFFF, .amov c0 5 2, .mova c0 31 3, .mfs c0 6 .coreId, .mfs c0 6 (.lc 3), .mfs c0 6 .sticky, .mts c0 1]
def branchOps : List Instr := [.br c0 1 2 .geu 0xFFFFFF, .br c0 1 2 .eq 3, .j c0 0x800000, .jr c0 31]
def arithOps (x : VF) : List Instr :=
  vectorTable.map (fun o => o.1 c0 x) ++ [.vabs c0 x, .vneg c0 x, .vfma c0 x, .vshl c0 x, .vshr c0 x]
def moveOps (x : VF) : List Instr :=
  bitwiseTable.map (fun o => o.1 c0 x) ++ [.vmov c0 x, .vbcast c0 x, .vext c0 x, .viota c0 x, .vsel c0 x, .vcmp c0 x .ge, .plog c0 x .andNot,
    .pset c0 x true, .vnms c0 { x with et := .fp32 }, .vcvt c0 x .fp32 3 (-127), .vlut c0 { x with et := .fp32 } 3,
    .vboxdec c0 { x with et := .fp32 } 0, .vred c0 x .min, .vwmax c0 x 7 2, .vwavg c0 x 0 1]
def loadOps : List Instr :=
  [.lds c0 6 1 .d64 0x3FFFFF, .vld c0 6 1 0x1FFFFFF, .vgth c0 6 1 2, .tld c0 3 1, .srow c0 1 1 3 4 .int8 .side 0, .wfill c0 1 4 31 0, .wgather c0 1 1 0 0]
def storeOps : List Instr := [.sts c0 2 1 3 0x7FFFFF, .vst c0 1 1 7 true .w32 0x7FFFF, .vsct c0 1 1 4, .drain c0 1 0 3 4 1 false false false, .statst c0 0 4 1]
def matrixOps : List Instr := [.mstream c0 1 false false true 0 3 1 0, .mswap c0 15, .mclr c0 9 1023 3 true, .mard c0 3 1023 31 true, .mawr c0 3 0 1 true true]
def syncOps : List Instr :=
  [.set c0 6, .wait c0 9, .setl c0 255 0, .waitl c0 255 0 3, .bar c0, .phase c0 255, .dma c0 1 4, .dwait c0 0, .layer c0 true, .end_ c0, .loop c0 31 5, .lcset c0 1 1]

/-- Each of them passes the decode checks in a bundle of its own. -/
theorem test_slot_words_decode : ∀ i ∈ scalarOps ++ addressOps ++ branchOps ++ arithOps (vf .int8) ++ moveOps (vf .int8) ++ loadOps ++ storeOps ++ matrixOps ++ syncOps,
    bundleChk (bundleOf [i]) = none ∧ (slotWord i).isSome = true := by decide +kernel

/-- A core does not execute what its bundle does not hold. -/
theorem test_operation_not_in_bundle : left? (exec (.add c0 6 2 1) (hold [.sub c0 6 2 1] run0)) (fun d => (d.core 0).view.rs 6) = some 0 := by decide +kernel

/-! ### Residues -/

/-- The example of R320: S = −16,016 has residue 0, a flip of bit 10 is detected, an error of 7 is not. -/
theorem test_residue_example : residue (-16016) = 0 ∧ intFails 0 (flipInt 1024 (-16016)) = true ∧ intFails 0 (-16009) = false := by decide +kernel
/-- Flips of an FP32 code's sign, exponent and significand are detected; so is a 1 that becomes infinite. -/
theorem test_fp_flips : (∀ k, k < 32 → Fmt.fp32.fp.fails 0x3FC00000 (flipCode 32 (2 ^ k) 0x3FC00000) = true) ∧
    Fmt.fp32.fp.fails 0x3F800000 0x7F800000 = true ∧ Fmt.fp32.fp.fails 0x3FC00000 0x3FC00000 = false := by decide +kernel

/-! ### SHA3-256 (FIPS 202): the digest of no bytes -/

theorem test_sha3_of_nothing : sha3 [] = bv256 ((([0xA7, 0xFF, 0xC6, 0xF8, 0xBF, 0x1E, 0xD7, 0x66, 0x51, 0xC1, 0x47, 0x56, 0xA0, 0x61, 0xD6, 0x62,
    0xF5, 0x80, 0xFF, 0x4D, 0xE4, 0x3B, 0x49, 0xFA, 0x82, 0xD8, 0x0A, 0x4B, 0x80, 0xF8, 0x43, 0x4A] : List Nat).map (BitVec.ofNat 8))) := by decide +kernel

/-! ### Witnesses: every hypothesis of each statement's clauses holds somewhere -/

def someSet : CellSet := { tag := some (.int8, 0), rows := [(3, ⟨.int8, 7⟩)], fresh := false }

theorem witness_TripHoldsUntilColdReset :
    let s : State := { dev := { tripped := true }, pending := [.nop c0 0] }
    s.pending = Instr.nop c0 0 :: [] ∧ s.dev.refLost = false ∧ s.dev.tripped = true ∧
      step s = .next { s with pending := [] } := ⟨rfl, rfl, rfl, rfl⟩

theorem witness_CommandsKeepQueue : exec .expired State.reset = .next { dev := { ctr := 1 } } := rfl

theorem witness_ScalarOperations : Each scalarOps run0 (fun _ s => CanIssue s c0 0) := by decide +kernel

/-- A stream of an earlier bundle, and none. -/
def behind : Stream := { amask := 1, add := false, outl := false, feed := true, base := 0, v := 3, wfmt := .int8, afmt := .int8, bw := 0, waddr := 0, spos := 0, jexp := 0, marked := 0, j := 0, ord := 0, pos := (0, 0) }
def runBehind : State := runWith (fun c => { c with stream := some behind, retired := 1, cur := c.cur.map (fun b => { b with view := { b.view with retired := 1 } }) }) []
theorem witness_AddressAndSpecialRegisters :
    Each addressOps run0 (fun _ s => CanIssue s c0 0 ∧ (s.dev.core 0).earlierStream = false ∧ s.dev.jobOf 0 = some (0, job0)) ∧
    Each [.mfs c0 6 .sticky, .mts c0 1] runBehind (fun _ s => CanIssue s c0 0 ∧ (s.dev.core 0).earlierStream = true) := by decide +kernel

theorem witness_ControlFlowOfOneCore :
    Each branchOps run0 (fun _ s => TrailOff s 0 ∧ CanIssue s c0 0 ∧ Alone s 0 0 ∧ condHolds .eq (opS s c0 1) (opS s c0 2) = false ∧
    condHolds .geu (opS s c0 2) (opS s c0 1) = true ∧ NotAtLoopEnd s 0) := by decide +kernel

/-- LOOP nests up to the end of the innermost live body; LCSET reaches the innermost live level. -/
theorem witness_ControlFlowOfOneCore_loops :
    Each [.loop c0 31 5, .lcset c0 1 1] runLoop (fun _ s => CanIssue s c0 5 ∧ Alone s 0 5 ∧ (s.dev.core 0).loops.length < 4 ∧
    (s.dev.core 0).loops.getLast? = some ⟨3, 5⟩ ∧ (s.dev.core 0).here + (5#20).toNat ≤ 5 ∧
    (1 : Fin 4).val < (s.dev.core 0).loops.length) := by decide +kernel

theorem witness_Governs : Governs run0 c0 (vf .int8) (fun _ => true) ∧
    Governs run0 c0 { vf .int8 with pen := true, p := 1 } (fun i => (BitVec.ofNat 512 (2 ^ 511 + 1)).getLsbD i) :=
  ⟨Or.inl ⟨rfl, fun _ => rfl⟩, Or.inr ⟨rfl, _, by decide +kernel, fun _ => rfl⟩⟩

theorem witness_VectorArithmeticAndHalts :
    (∀ f ∈ [Fmt.int8, .int16, .int32, .uint8, .fp16, .bf16, .fp32], f.arith = true) ∧ Fmt.int8.isInt = true ∧ Fmt.int4.arith = false ∧
    Each (arithOps (vf .int8) ++ arithOps (vf .fp32) ++ vectorTable.map (fun o => o.1 c0 (vf .int4))) run0 (fun _ s => CanIssue s c0 1 ∧
      (opV s c0 1).isSome = true ∧ (opV s c0 2).isSome = true ∧ (opV s c0 4).isSome = true ∧ opV s c0 9 = none) := by decide +kernel

/-- VNMS takes up to 32 boxes; VCVT's last part; a written table buffer. -/
theorem witness_VectorMovesPredicatesAndConversions :
    Fmt.int8.isCb = false ∧ Fmt.fp32.isCb = false ∧ (3 : Fin 4).val < Fmt.int8.count / Fmt.fp32.count ∧
    Each (moveOps (vf .int8)) runTab (fun _ s => CanIssue s c0 1 ∧ (opP s c0 (predOf 1)).isSome = true ∧ (opP s c0 (predOf 2)).isSome = true ∧
      (opS s c0 31).toNat = 32 ∧ (opV s c0 1).isSome = true ∧ (Tbl.find? (s.dev.core 0).tb 0).isSome = true) := by decide +kernel

def runSets : State := runL (fun c => { c with sets := [(4, {}), (5, someSet)] }) []

theorem witness_LoadsOfRegistersAndTables :
    Each [.lds c0 6 1 .d64 0, .vld c0 6 1 0, .tld c0 3 1, .wfill c0 1 1 31 0] (runL id []) (fun _ s =>
      CanIssue s c0 3 ∧ Unregulated s 0 ∧ LoadOk s (opA s c0 1).toNat 8 8 ∧ LoadOk s (opA s c0 1).toNat 512 64 ∧ LoadOk s (opA s c0 1).toNat 1040 16 ∧
      loaded s c0 ((opA s c0 1).toNat + 4) 4 = 0 ∧ loaded s c0 ((opA s c0 1).toNat + 8) 8 = 0 ∧
      (s.dev.core 0).mq = [] ∧ (s.dev.core 0).stream = none ∧ (s.dev.core 0).feedSrc = [] ∧ (opS s c0 31).toNat % 32 = 0 ∧
      (s.dev.core 0).feedMain.length + 32 ≤ 65536 ∧ (s.dev.core 0).feedSide.length + 5 ≤ 16384 ∧ LoadOk s (opA s c0 1).toNat 32 1) := by
  decide +kernel

/-- A gather of 128 words, the last of them at the last word of the core memory. -/
theorem witness_LoadsOfRegistersAndTables_gather :
    let s := hold [.vgth c0 6 1 1] (runL (fun c => { c with cur := some { q := ⟨0, 0, 0, true⟩, view := { view0 with v := [(1, vOf 32 (List.replicate 127 0 ++ [0x3BFF]))] } } }) [])
    Sent (.vgth c0 6 1 1) s ∧ CanIssue s c0 3 ∧ ∃ idx, opV s c0 1 = some idx ∧
      ∀ i, i < 128 → inCore 0 (((opA s c0 1).toNat + 4 * sgn 32 (elem 32 i idx)) % 2 ^ 48).toNat = true ∧
        (((opA s c0 1).toNat + 4 * sgn 32 (elem 32 i idx)) % 2 ^ 48).toNat % 4 = 0 ∧
        s.dev.poisoned (((opA s c0 1).toNat + 4 * sgn 32 (elem 32 i idx)) % 2 ^ 48).toNat 4 = none := by
  refine ⟨by decide +kernel, by decide +kernel, vOf 32 (List.replicate 127 0 ++ [0x3BFF]), by decide +kernel, by decide +kernel⟩

/-- The last row of a set and the first index beyond it; a marked row after the rows marked so far. -/
theorem witness_LoadsOfRegistersAndTables_rows :
    Fmt.int8.gatherable = true ∧ rowInRange .main .int8 0 127 = true ∧ rowInRange .main .int8 0 128 = false ∧
    Each [.srow c0 1 1 0 127 .int8 .main 0, .srow c0 1 1 4 127 .int8 .main 0] runSets (fun _ s => CanIssue s c0 3 ∧ Unregulated s 0 ∧
      (s.dev.core 0).swapQueued 1#4 = false ∧ LoadOk s (opA s c0 1).toNat (rowBytesOf .main .int8 * (arrays 1#4).length) 1 ∧
      isOk ((s.dev.core 0).putRows [(0, 7)] .main 127 .int8 (baSize 0)) = true) ∧
    isOk (({} : CellSet).putRow .main 127 .int8 0 7) = true ∧ someSet.fresh = false ∧ isOk (someSet.putRow .side 4 .int8 0 7) = true := by decide +kernel

/-- Words 0 to 10 of a gather descriptor: UINT8 4 × 5 × 3 input, KH × KW kernel, padding. -/
def gatherDesc (padmode kh outl : Nat) : List Nat :=
  [0x2000 + 3 * 2 ^ 24 + padmode * 2 ^ 28, 4 + 5 * 65536, 3, 3, 15, kh + 3 * 256 + 0x11110000, 0x01010101, 9, 0, 0, 0x5000 + outl * 2 ^ 24]
def gatherS (padmode kh outl : Nat) : State :=
  runL (fun c => { c with sets := [(4, {}), (5, {})] }) (memOf [(core0Base + 0x1000, gatherDesc padmode kh outl), (core0Base + 0x5000, [0, 0x6000, 64, 0])])
def gatherOf (s : State) : Chk Gather :=
  let a := (opA s c0 1).toNat
  readGather (s.dev.bytes (agentCore 0) a 64) a

theorem witness_GatherTilesAndElements :
    Each [.wgather c0 1 1 0 0, .wgather c0 0 1 0 0] (gatherS 1 3 0) (fun _ s =>
      CanIssue s c0 3 ∧ (s.dev.core 0).swapQueued 1#4 = false ∧ (s.dev.core 0).drains = [] ∧ inCore 0 (opA s c0 1).toNat = true ∧ (opA s c0 1).toNat % 64 = 0 ∧
      s.dev.poisoned (opA s c0 1).toNat 64 = none ∧
      okAnd (gatherOf s) (fun g => decide (0 < g.oh ∧ 0 < g.ow ∧ g.outlEn = false) &&
        isOk (g.addresses s.dev 0 g.ow.toNat (g.oh.toNat * g.ow.toNat) 0 g.p0 1) &&
        isOk (g.fillAll s.dev 0 g.ow.toNat (g.oh.toNat * g.ow.toNat) 0 g.p0 0 0 [] [(0, 0)] (s.dev.core 0))) = true) ∧
    okAnd (gatherOf (gatherS 0 9 0)) (fun g => decide (g.oh ≤ 0)) = true := by decide +kernel

theorem witness_GatherTilesAndElements_outliers :
    let s := hold [.wgather c0 1 1 0 0] (gatherS 2 3 1)
    Sent (.wgather c0 1 1 0 0) s ∧ CanIssue s c0 3 ∧ okAnd (gatherOf s) (fun g => decide (0 < g.oh ∧ 0 < g.ow ∧ g.outlEn = true ∧ g.outlOff = 0x5000)) = true ∧
    s.dev.outStray 0 0x5000 = false ∧ okAnd (s.dev.outliers 0 0x5000 0 128) (fun x => okAnd (gatherOf s) (fun g =>
      isOk (g.addresses s.dev 0 g.ow.toNat (g.oh.toNat * g.ow.toNat) 0 g.p0 1) &&
      isOk (g.fillAll s.dev 0 g.ow.toNat (g.oh.toNat * g.ow.toNat) 0 g.p0 x.1 x.2.1 x.2.2 [(0, 0)] (s.dev.core 0)))) = true := by decide +kernel

theorem witness_GatherTilesAndElements_elements :
    ∀ m ∈ [0, 1, 2], okAnd (gatherOf (gatherS m 3 0)) (fun g =>
      decide (0 < g.c * g.kh * g.kw ∧ g.padmode = m ∧ g.padT = 1 ∧ 0 < g.inH)) = true := by decide +kernel

theorem witness_StoresOfRegisters :
    Each [.sts c0 2 1 3 0, .vst c0 1 1 0 true .w32 0, .vst c0 1 1 0 false .w8 0] run0 (fun _ s =>
      CanIssue s c0 4 ∧ Unregulated s 0 ∧ s.dev.firstBad (opA s c0 1).toNat 512 = none ∧ (opA s c0 1).toNat % 64 = 0 ∧
      StoreFree s c0 [((opA s c0 1).toNat, 512)] ∧ StoreFree s c0 [((opA s c0 1).toNat, 8)] ∧ (opV s c0 1).isSome = true ∧ opP s c0 0 = some 5) := by
  decide +kernel

/-- A scatter to words of the core memory. -/
theorem witness_StoresOfRegisters_scatter :
    let s := hold [.vsct c0 1 1 4] (runWith (fun c => { c with cur := c.cur.map (fun b => { b with view := { view0 with v := view0.v ++ [(5, vOf 32 [0, 1, 2])] } }) }) [])
    let t := hold [.vsct c0 1 1 5] s
    Sent (.vsct c0 1 1 5) t ∧ CanIssue t c0 4 ∧ Unregulated t 0 ∧ t.dev.storeHeld 0 ((List.range 128).map (fun i => (i, 4))) = false ∧
    ∃ idx, opV t c0 5 = some idx ∧ ∀ i, i < 128 →
      inCore 0 (((opA t c0 1).toNat + 4 * sgn 32 (elem 32 i idx)) % 2 ^ 48).toNat = true ∧
      (((opA t c0 1).toNat + 4 * sgn 32 (elem 32 i idx)) % 2 ^ 48).toNat % 4 = 0 := by
  refine ⟨by decide +kernel, by decide +kernel, by decide +kernel, by decide +kernel, vOf 32 [0, 1, 2], by decide +kernel, by decide +kernel⟩

def desc8 : Tbl Byte := memOf [(core0Base + 0x1000, [2 + 32, 0x2000, 0x6000, 0])]
/-- Sets of the four arrays with INT8 weights, an accumulator entry of each tag. -/
def matS (f : Core → Core) : State :=
  runWith (fun c => f { c with
    sets := [(0, someSet), (2, someSet), (4, someSet), (6, someSet)]
    acc := [(0, { fp := false, cols := 0x7FFFFFFF80000000 }), (1024, { fp := true, cols := 0x3F800000 })] }) desc8

theorem witness_MatrixSwapClearReadWrite :
    Each [.mswap c0 15, .mclr c0 9 0 4 true, .mard c0 3 1023 31 true, .mawr c0 3 0 1 true true] (matS id) (fun _ s =>
      MatrixIdle s c0 ∧ (s.dev.core 0).rowPending = false ∧ 1 ≤ (opS s c0 4).toNat % 2 ^ 32 ∧ (0 : Fin 1024).val + (opS s c0 4).toNat % 2 ^ 32 ≤ 1024 ∧
      (opV s c0 1).isSome = true) := by decide +kernel

/-- The stream that an MSTREAM of `v` vectors starts, once it stands in the queue. -/
def queuedS (s : State) (feed : Bool) (v : Nat) : Chk Stream :=
  let e : MEntry := { ord := (s.dev.core 0).ord, pos := s.dev.curPos 0, op := .mstream 1 false false feed 0 v (opA s c0 1) }
  (s.dev.updCore 0 (fun k => { k with mq := [e], cur := k.cur.map (fun b => { b with queued := true }) })).startStream 0 e 1 false false feed 0 v (opA s c0 1)
theorem witness_MatrixStreamStartsOrHalts :
    Each [.mstream c0 1 false false true 0 3 1 0, .mstream c0 1 false false false 0 0 1 0, .mstream c0 1 false false false 1 4 1 0] (matS id) (fun _ s =>
      MatrixIdle s c0 ∧ 1 ≤ (opS s c0 3).toNat ∧ 0 + (opS s c0 3).toNat ≤ 1024 ∧ (opS s c0 0).toNat = 0 ∧ 1024 < 1 + (opS s c0 4).toNat ∧
      okAnd (queuedS s true 3) (fun st => (laneMode st.afmt st.wfmt).isSome && decide ((s.dev.core 0).feedMain.length < mainBytes st.wfmt)) = true) := by
  decide +kernel

/-- A stream of one vector from memory. -/
theorem witness_MatrixStreamStartsOrHalts_memory :
    Each [.mstream c0 1 false false false 0 3 1 0] (matS (fun c => { c with cur := c.cur.map (fun b => { b with view := { b.view with s := [(3, 1)] } }) })) (fun _ s =>
      MatrixIdle s c0 ∧ (opS s c0 3).toNat = 1 ∧
      okAnd (queuedS s false 1) (fun st => (laneMode st.afmt st.wfmt).isSome && (vectorsEnter 0 1 (s.dev.updCore 0 (fun k => { k with stream := some st }))).isSome) = true) := by
  decide +kernel

theorem witness_AccumulatorWrites :
    (List.replicate 64 (Incoming.int 5)).length = 64 ∧ ((matS id).dev.core 0).flips = [] ∧ ((matS id).dev.accEntry 0 0 0).fp = false ∧ ((matS id).dev.accEntry 0 1 0).fp = true ∧
    ((matS (fun c => { c with accBad := [accKey 3 1023] })).dev.core 0).accBad.contains (accKey 3 1023) = true ∧
    sgn 32 (((matS id).dev.accEntry 0 0 0).col 1) + 1 = 2 ^ 31 := by decide +kernel

/-- A drain descriptor: FP32 output of two columns, one of them with argmax. -/
def drainDesc (arg : Nat) : List Nat := [2 + arg * 32768, 65536, 0xC2000000, 0x42000000, 0x8000, 0x7000, 64, 0x9000, 0xA000]
def drainS (f : Core → Core) (arg : Nat) : State :=
  runWith (fun c => f { c with
    sets := [(0, someSet)], acc := [(0, { fp := false, cols := 0x12345678 })] })
    (memOf [(core0Base + 0x1000, [2 + 32, 0x2000, 0x6000, 0]), (core0Base + 0x1040, drainDesc arg)])

theorem witness_DrainsAndStatistics :
    Each [.drain c0 1 0 3 4 1 false false false, .statst c0 0 4 1] (drainS id 0) (fun _ s =>
      CanIssue s c0 4 ∧ Unregulated s 0 ∧ s.dev.poison = [] ∧
      okAnd (s.dev.drainPlan 0 (s.dev.core 0).operands 1#4 0 3 4 1 false false false) (fun p =>
        !(s.dev.core 0).accPending p && !p.last && p.sel.length = 1) = true ∧ (s.dev.core 0).loadPending = false ∧ (s.dev.core 0).stream = none ∧
      1 ≤ (opS s c0 4).toNat ∧ 0 + (opS s c0 4).toNat ≤ 1024 ∧ s.dev.firstBad (opA s c0 1).toNat (16 * (opS s c0 4).toNat) = none ∧
      (opA s c0 1).toNat % 16 = 0 ∧ StoreFree s c0 [((opA s c0 1).toNat, 16 * 1024)]) := by decide +kernel

/-- A DRAIN of what a fed stream of an earlier bundle is still to write. -/
theorem witness_DrainsAndStatistics_waits :
    Each [.drain c0 1 0 3 4 1 false false false] (drainS (fun c => { c with stream := some behind, cur := c.cur.map (fun b => { b with view := { b.view with retired := 1 } }), retired := 1 }) 0) (fun _ s =>
      CanIssue s c0 4 ∧ Unregulated s 0 ∧ (s.dev.core 0).stream = some behind ∧ behind.feed = true ∧ (laneMode behind.afmt behind.wfmt).isSome = true ∧
      okAnd (s.dev.drainPlan 0 (s.dev.core 0).operands 1#4 0 3 4 1 false false false) (fun p => (s.dev.core 0).accPending p) = true ∧
      (s.dev.core 0).feedMain.length < mainBytes behind.wfmt) := by decide +kernel

/-! #### Bundles, flags, barriers, layers -/

def line (f : Nat → Nat) : BitVec 2048 := BitVec.ofNat 2048 ((List.range 8).foldl (fun x i => x + f i * 2 ^ (256 * i)) 0)
def seqS (c : Core) (j : Job) : State := { dev := { cores := [(0, c)], jobs := [(0, j)] } }
def idle0 : Core := { gang := some 0 }
def lineC : BitVec 2048 := line (fun i => if i = 0 then 0xB7 + 0x7F * 256 else 0)
def fetchS : State := seqS { idle0 with icache := [(0, line (fun i => 0x55 * i))] } { job0 with fetch := 31 }
def breakS : State := { dev := { fetchS.dev with regs := [(Reg.CCn_DBG_CONTEXT 0, 0x80000003), (Reg.CCn_BKPTb 0 1, Fld.CCn_BKPTb_EN.put (Fld.CCn_BKPTb_ADDR.put 0 0) 1)], jobs := [(0, job0)] } }
def tagS : State := seqS { idle0 with icache := [(0, lineC)] } { job0 with tagged := true }

theorem witness_BundleBroadcastAndCacheFill :
    Live fetchS ∧ MayFetch fetchS 0 { job0 with fetch := 31 } ∧ pcOf false 31 < job0.codeLen ∧
    Tbl.find? (fetchS.dev.core 0).icache (pcOf false 31 / 256 * 256) = none ∧
    MayFetch (seqS { idle0 with icache := [(0, lineC)] } job0) 0 job0 ∧ pcOf false 0 < job0.codeLen ∧ fetchS.dev.breakpoint 0 job0 0 = none ∧
    Tbl.find? (tagS.dev.core 0).icache 0 = some lineC ∧ tagLineOk (blockLine lineC 0) 0 = true ∧
    MayFetch tagS 0 { job0 with tagged := true } ∧
    MayFetch breakS 0 job0 ∧ breakS.dev.breakpoint 0 job0 0 = some 1 ∧ breakS.dev.allDrained job0 = true := by decide +kernel

theorem witness_BundleBroadcastAndCacheFill_fill :
    let s := seqS { idle0 with icache := [(256, lineC)] } { job0 with miss := some 512 }
    Live s ∧ s.dev.job? 0 = some { job0 with miss := some 512 } ∧ s.dev.poisoned 512 256 = none ∧ (s.dev.core 0).icache.length < 512 := by
  decide +kernel

def decS (b : BitVec 256) (v : Bool) : State := seqS { idle0 with iq := [⟨4, b, 7, v⟩, ⟨5, 0, 0, true⟩] } job0

theorem witness_BundleDecodeAndRetirement_decode :
    (decS 0 true).dev.jobOf 0 = some (0, job0) ∧ (decS 0 true).dev.mayDecode 0 0 job0 = true ∧
    ((decS 0 true).dev.core 0).iq = ⟨4, 0, 7, true⟩ :: [⟨5, 0, 0, true⟩] ∧ bundleChk 0 = none ∧
    (bundleChk 0xFF).isSome = true ∧ (decS 0xFF true).dev.mayDecode 0 0 job0 = true ∧ (decS 0 false).dev.mayDecode 0 0 job0 = true := by
  decide +kernel

def retS (f : Core → Core) : State := seqS (f { idle0 with cur := some { q := ⟨5, 0, 0, true⟩, issued := 63#6 } }) job0

/-- The innermost loop's counter at 2 counts down, at 1 ends the loop. -/
theorem witness_BundleDecodeAndRetirement_retire :
    let s := retS id
    let t := retS (fun c => { c with loops := [⟨0, 9⟩, ⟨3, 5⟩], lc := [(1, 2)] })
    let u := retS (fun c => { c with loops := [⟨0, 9⟩, ⟨3, 5⟩], lc := [(1, 1)] })
    Live s ∧ RunsIn s 0 0 job0 ∧ NoStop s 0 job0 ∧ TrailOff s 0 ∧ (s.dev.core 0).older = [] ∧
    (s.dev.core 0).cur = some { q := ⟨5, 0, 0, true⟩, issued := 63#6 } ∧
    (s.dev.core 0).loops.all (fun x => decide (x.last ≠ 5)) = true ∧
    RunsIn t 0 0 job0 ∧ (t.dev.core 0).taken = false ∧ (t.dev.core 0).loops.getLast? = some ⟨3, 5⟩ ∧
    1 < (Tbl.getD (t.dev.core 0).lc 1 0).toNat ∧ (Tbl.getD (u.dev.core 0).lc 1 0).toNat ≤ 1 ∧
    (u.dev.core 0).loops.dropLast.all (fun x => decide (x.last ≠ 5)) = true := by decide +kernel

def flagJob : Job := { job0 with sets := [5, 262143], heldFlags := [7], flags := [(255, 3)] }
def flagS : State := seqS { core0 { view0 with s := view0.s ++ [(6, 262143), (7, 262144), (8, 255), (9, 7)] } with
  cur := some { q := ⟨5, 0, 0, true⟩, issued := 31#6, view := { view0 with s := view0.s ++ [(6, 262143), (7, 262144), (8, 255), (9, 7)] } } } flagJob

theorem witness_FlagsBarriersAndLayers :
    Each [.set c0 6, .set c0 7, .set c0 3, .setl c0 255 0, .wait c0 9, .waitl c0 255 0 3, .phase c0 255] flagS (fun _ s =>
      CanIssue s c0 5 ∧ TrailOff s 0 ∧ s.dev.jobOf 0 = some (0, flagJob) ∧ (s.dev.core 0).drains = [] ∧
      (opS s c0 6).toNat < 262144 ∧ flagJob.sets.contains (opS s c0 6).toNat = true ∧ 262144 ≤ (opS s c0 7).toNat ∧
      flagJob.sets.contains (opS s c0 3).toNat = false ∧ ((255#8).toNat + (opS s c0 0).toNat) % 2 ^ 64 < 256 ∧
      flagJob.heldFlags.contains (opS s c0 9).toNat = true ∧ (opS s c0 3).toNat % 2 ^ 32 ≤ (Tbl.getD flagJob.flags 255 0).toNat ∧
      flagJob.members.Nodup ∧ 0 ∈ flagJob.members ∧ s.dev.pmMode ≠ 1 ∧ s.dev.fld Reg.PM_MODE Fld.PM_MODE_MODE ≠ 1) := by decide +kernel

/-- A gang of two at a barrier: the last member arrives, or the first. -/
def barS (a1 : Bool) : State :=
  { dev := { cores := [(0, { idle0 with cur := some { q := ⟨5, 0, 0, true⟩, issued := 31#6 } }),
                       (1, { idle0 with cur := some { q := ⟨5, 0, 0, true⟩, issued := 31#6 }, atBar := a1 })],
             jobs := [(0, { job0 with members := [0, 1] })] } }

theorem witness_FlagsBarriersAndLayers_bar :
    let j := { job0 with members := [0, 1] }
    Each [.bar c0] (barS true) (fun _ s => CanIssue s c0 5 ∧ TrailOff s 0 ∧ s.dev.jobOf 0 = some (0, j) ∧ j.members.Nodup ∧ 0 ∈ j.members ∧
      (∀ m ∈ j.members, m ≠ 0 → (s.dev.core m).atBar = true) ∧ (∀ m ∈ j.members, (s.dev.core m).gang = some 0)) ∧
    Each [.bar c0] (barS false) (fun _ s => CanIssue s c0 5 ∧ s.dev.jobOf 0 = some (0, j) ∧ ∃ m ∈ j.members, m ≠ 0 ∧ (s.dev.core m).atBar = false) ∧
    Each [.phase ⟨1, {}⟩ 3] (barS false) (fun _ s => CanIssue s ⟨1, {}⟩ 5 ∧ TrailOff s 1 ∧ s.dev.jobOf 1 = some (0, j)) := by decide +kernel

def layerCore : Core := { idle0 with cur := some { q := ⟨5, 0, 0, true⟩, issued := 31#6 } }

/-- Core 0 stands at the end of a layer with nothing in flight. -/
abbrev AtLayerEnd (s : State) : Prop :=
  CanIssue s c0 5 ∧ TrailOff s 0 ∧ s.dev.jobOf 0 = some (0, job0) ∧ job0.members = [0] ∧ NoStop s 0 job0 ∧ job0.stopAfter = none ∧
  ((s.dev.core 0).cur.all (fun b => decide (b.issued ||| 32#6 = 63#6))) = true
/-- It has no earlier bundle, no array work, no transfer and no drain left. -/
abbrev NothingInFlight (s : State) : Prop :=
  (s.dev.core 0).older = [] ∧ (s.dev.core 0).mq = [] ∧ (s.dev.core 0).stream = none ∧ (s.dev.core 0).held = none ∧
  (s.dev.core 0).de.lists = [] ∧ (s.dev.core 0).de.descs = [] ∧
  (s.dev.core 0).feedMain = [] ∧ (s.dev.core 0).feedSide = [] ∧ (s.dev.core 0).feedSrc = [] ∧ (s.dev.core 0).drains = []
def openAcc : Core := { layerCore with acc := [(0, { fp := true, cols := 0, open_ := true })] }
def insideLoop : Core := { layerCore with loops := [⟨0, 9⟩] }
/-- A layer that ends. -/
theorem witness_FlagsBarriersAndLayers_layer :
    Each [.layer c0 true, .end_ c0] (seqS layerCore job0) (fun _ s => AtLayerEnd s ∧ NothingInFlight s ∧ (s.dev.core 0).accDrained = true ∧
      (s.dev.core 0).loops = []) := by decide +kernel
/-- An entry that no drain has read. -/
theorem witness_FlagsBarriersAndLayers_open :
    Each [.layer c0 true] (seqS openAcc job0) (fun _ s => AtLayerEnd s ∧ NothingInFlight s ∧ (s.dev.core 0).accDrained = false) := by
  decide +kernel
/-- An END inside a loop. -/
theorem witness_FlagsBarriersAndLayers_loop :
    Each [.end_ c0] (seqS insideLoop job0) (fun _ s => AtLayerEnd s ∧ NothingInFlight s ∧ (s.dev.core 0).loops ≠ []) := by decide +kernel

/-! #### DMA -/

def dmaDesc (kind src dst len : Nat) : List Byte := rw [kind, 0, src % 2 ^ 32, src / 2 ^ 32, dst % 2 ^ 32, dst / 2 ^ 32, len, 0, 0, 0, 0, 0, 0, 0, 0, 0]
def deS (e : Engine) : State := seqS { layerCore with de := e } job0
def d0 (l : List Byte) (p : Nat) : DDesc := { ser := 3, list := 4, idx := 0, off := 0, raw := l, started := decide (p ≠ 0), pos := p, src := if p = 0 then 0 else 0x10010 }
def list1 : DList := { id := 4, off := 0x1000, count := 1, fetched := 1 }
def deX (l : List Byte) (p : Nat) : State := deS { lists := [list1], descs := [d0 l p] }

theorem witness_DmaSubmissionAndCompletion :
    Each [.dma c0 1 4, .dma c0 1 2, .dma c0 1 0, .dwait c0 0] (runL id []) (fun _ s =>
      CanIssue s c0 5 ∧ TrailOff s 0 ∧ 1 ≤ (opS s c0 4).toNat ∧ (opS s c0 4).toNat ≤ 4096 ∧ inCore 0 (opA s c0 1).toNat = true ∧
      inCore 0 ((opA s c0 1).toNat + 64 * (opS s c0 4).toNat - 1) = true ∧ (opA s c0 1).toNat % 64 = 0 ∧ (s.dev.core 0).de.lists.length < 64 ∧
      (s.dev.core 0).fillPending = false ∧ 4096 < (opS s c0 2).toNat ∧ (opS s c0 0).toNat % 2 ^ 32 ≤ (s.dev.reg (Reg.CCn_DE_DONE 0)).toNat) := by decide +kernel

/-- The rest of a list is fetched; a moved descriptor completes, also in a gang that has halted. -/
theorem witness_DmaSubmissionAndCompletion_engine :
    let l : DList := { id := 4, off := 0x1000, count := 20, fetched := 16 }
    let y : DDesc := { d0 (dmaDesc 0 0 0 0) 0 with moved := true }
    let s := deS { lists := [l] }
    let t := deS { lists := [list1], descs := [y] }
    let u := seqS { layerCore with halted := true, de := { lists := [list1], descs := [y] } } { job0 with state := .debugHalt }
    Live s ∧ s.dev.issuing 0 = true ∧ FeedQuiet s 0 ∧ (s.dev.core 0).de.batches < 2 ∧
    (s.dev.core 0).de.lists.find? (fun l => decide (l.fetched < l.count)) = some l ∧
    s.dev.poisoned (coreAddr 0 (0x1000 + 64 * 16)) 256 = none ∧
    t.dev.issuing 0 = true ∧ FeedQuiet t 0 ∧ (t.dev.core 0).de.descs = y :: [] ∧ y.moved = true ∧
    u.dev.issuing 0 = false ∧ (u.dev.core 0).de.descs = y :: [] := by decide +kernel

theorem ok_unit {ε : Type} {x : Except ε Unit} (h : isOk x = true) : x = .ok () := by
  cases x with
  | ok a => rfl
  | error e => cases h
theorem ok_of {ε α : Type} [DecidableEq α] {x : Except ε α} {b : α} (h : okAnd x (fun a => decide (a = b)) = true) : x = .ok b := by
  cases x with
  | ok a => exact congrArg Except.ok (of_decide_eq_true h)
  | error e => cases h
/-- TransferReady, its parts decided one by one. -/
theorem transfer_ready {s : State} {i : Fin 32} {y : DDesc} {kind src : Nat}
    (h : (Live s ∧ s.dev.issuing 0 = true ∧ Unregulated s 0 ∧ FeedQuiet s 0 ∧ s.dev.poison = [] ∧ (s.dev.core 0).de.toMove[i.val]? = some y ∧
      ((s.dev.core 0).de.descs.map (·.ser)).Nodup ∧ (s.dev.core 0).de.mayStart y = true ∧ (dmaFields y.raw).kind = kind) ∧
      (isOk (dmaCheck y.raw (s.dev.declared 0)) = true ∧ okAnd (s.dev.rowSource 0 y (dmaFields y.raw)) (fun a => decide (a = src)) = true ∧
      s.dev.firstBad src (dmaFields y.raw).len0 = none ∧
      (kind ≠ 3 → s.dev.firstBad ((dmaFields y.raw).rowDest y.row) (dmaFields y.raw).len0 = none))) : TransferReady s c0 i y kind src :=
  have ⟨⟨h1, h2, h3, h4, h5, h6, h7, h8, h9⟩, h10, h11, h12, h13⟩ := h
  ⟨h1, rfl, h2, h3, h4, h5, h6, h7, h8, h9, fun _ => ok_unit h10, ok_of h11, fun _ => ⟨h12, h13⟩⟩

/-- The first and the last transfer of a COPY, and one beside another that has started. -/
theorem witness_DmaTransfers :
    let l := dmaDesc 1 0x10010 (core0Base + 0x3000) 300
    let two := deS { lists := [{ list1 with count := 2, fetched := 2 }], descs := [{ d0 l 7 with ser := 2 }, d0 l 299] }
    TransferReady (deX l 0) c0 0 (d0 l 0) 1 0x10010 ∧ TransferReady (deX l 299) c0 0 (d0 l 299) 1 0x10010 ∧
    TransferReady two c0 1 (d0 l 299) 1 0x10010 ∧ NoRival (deX l 0) 0 3 (core0Base + 0x3000) 240 ∧
    (∀ i, i < 240 → (dmaFields l).reads (core0Base + 0x3000 + i) = false) :=
  ⟨transfer_ready (by decide +kernel), transfer_ready (by decide +kernel), transfer_ready (by decide +kernel), by decide +kernel, by decide +kernel⟩

theorem witness_DmaTransfers_feed :
    let l := dmaDesc 3 0x10000 0 64
    let s := seqS { layerCore with feedSrc := [.list 4], de := { lists := [list1], descs := [d0 l 0] } } job0
    TransferReady s c0 0 (d0 l 0) 3 0x10000 ∧ (s.dev.core 0).mayFeed (d0 l 0) (dmaFields l) 64 = true :=
  ⟨transfer_ready (by decide +kernel), by decide +kernel⟩

def gatherDma : List Byte := rw [2 + 16, 0, 0x10000, 0, 0x3000, 0x21, 16, 3, 0, 16, 16, 0, 0, 0x40, 0, 0]
theorem witness_DmaTransfers_gather_and_nop :
    isOk ((deX gatherDma 0).dev.rowSource 0 (d0 gatherDma 0) (dmaFields gatherDma)) = true ∧
    isOk (dmaCheck gatherDma ((deX gatherDma 0).dev.declared 0)) = true ∧ (dmaFields gatherDma).kind = 2 ∧
    ((deX (dmaDesc 0 0 0 0) 0).dev.core 0).de.toMove[0]? = some (d0 (dmaDesc 0 0 0 0) 0) ∧
    ((deX (dmaDesc 0 0 0 0) 0).dev.core 0).de.mayStart (d0 (dmaDesc 0 0 0 0) 0) = true ∧
    isOk (dmaCheck (dmaDesc 0 0 0 0) []) = true := by decide +kernel

/-! #### Replay, debug, stalls, buckets -/

theorem witness_ReplayDebugAndStallWatchdog :
    let j := { job0 with state := .replaySetup }
    let s := seqS idle0 j
    Live s ∧ (∀ n, n < 8 → TrailOff s n) ∧ s.dev.job? 0 = some j ∧ s.dev.canHost j = true ∧ j.members = [0] ∧ j.haltAt = none ∧
    s.dev.bisect 0 { j with skipCount := none } = none := by decide +kernel

def dbgS (j : Job) : State :=
  { dev := { cores := [(0, { layerCore with trailHeld := [1, 2] })], jobs := [(0, j)], regs := [(Reg.CCn_DBG_CONTEXT 0, 0x80000003)]
             owners := [(ownKey 1 3, .a)] } }

theorem witness_ReplayDebugAndStallWatchdog_debug :
    let s := dbgS job0
    let t := dbgS { job0 with state := .debugHalt }
    (s.dev.port .b).lost = false ∧ s.dev.ownsDebug .b 0 = false ∧ s.dev.ownsDebug .a 0 = true ∧ s.dev.jobOf 0 = some (0, job0) ∧
    s.dev.armed 0 3 = true ∧ NoStop s 0 job0 ∧ job0.state = .running ∧ s.dev.standsAt job0 1 = false ∧
    (seqS idle0 job0).dev.standsAt job0 0 = true ∧ t.dev.ownsDebug .a 0 = true ∧ t.dev.armed 0 3 = true ∧
    (s.dev.core 0).trailHeld = 1 :: [2] := by decide +kernel

/-- The watchdog one cycle before its limit, at it, and switched off; a gang that waits on an event flag, and one that has halted. -/
theorem witness_ReplayDebugAndStallWatchdog_stall :
    let s : State := { dev := { (dbgS job0).dev with regs := [(Reg.CCn_STALL_LIMIT 0, 5)] } }
    let w := seqS { layerCore with waiting := some .flag } job0
    w.dev.job? 0 = some job0 ∧ (∃ n ∈ job0.members, (w.dev.core n).waiting = some .flag) ∧ ({ job0 with state := .debugHalt } : Job).state ≠ .running ∧
    (∀ n ∈ job0.members, (s.dev.core n).waiting ≠ some .flag) ∧ job0.state = .running ∧ s.dev.job? 0 = some job0 ∧ (s.dev.core 0).stall + 4 < (s.dev.reg (Reg.CCn_STALL_LIMIT 0)).toNat ∧
    (s.dev.reg (Reg.CCn_STALL_LIMIT 0)).toNat ≤ (s.dev.core 0).stall + 5 ∧
    (({ dev := { regs := [(Reg.CCn_STALL_LIMIT 0, 0)] } } : State).dev.reg (Reg.CCn_STALL_LIMIT 0)).toNat = 0 := by
  decide +kernel

def regS : State :=
  { dev := { cores := [(0, { held := some (3, 512), level := 25600 }), (1, { held := some (4, 100), level := 9999 })]
             sems := [(0, { holder := some .a, lastB := false })]
             regs := [(Reg.CCn_BWR_RATE 0, 100), (Reg.CCn_BWR_BURST 0, 1000), (Reg.CCn_BWR_RATE 1, 4), (Reg.CCn_BWR_BURST 1, 2000)] } }

/-- A bucket with just enough for the access, and one just short of it. -/
theorem witness_RegulatorAndMemoryController :
    Live regS ∧ regS.dev.bwrPend = [] ∧ regS.dev.pm.metered = false ∧ regS.dev.ctxRate = [] ∧
    (regS.dev.core 0).held = some (3, 512) ∧ regS.dev.jobOf 0 = none ∧ regS.dev.bRate 0 ≠ 0 ∧ 100 * 256 ≤ (regS.dev.core 0).level ∧
    FeedQuiet regS 0 ∧ (regS.dev.core 1).held = some (4, 100) ∧ regS.dev.bRate 1 ≠ 0 ∧ (regS.dev.core 1).level < 100 * 100 ∧
    regS.dev.bucketRefused .a 0 false 7 = false ∧ regS.dev.bucketRefused .b 0 false 7 = true ∧ regS.dev.holdsSem0 .b = false := by
  decide +kernel

/-! #### Hosts -/

def sem0 (p : Port) : Tbl Sem := [(0, { holder := some p, lastB := decide (p = .b) })]
/-- HP-A holds SEM0 and has staged a receiver's mode: a good one, or a mode that no receiver has. -/
def stg (v : Nat) : Tbl Word := [(Reg.CAM_CSIi_CFG 1, BitVec.ofNat 32 (v + 1000 * 65536))]
def hostS (x : PortSt) : State := { dev := { sems := sem0 .a, ports := [(0, x)] } }
def immOp : Checking := { apply := true, mode := .immediate, cam := 0 }
def com (m : CommitMode) (t : Nat) : Pending :=
  { port := .a, mode := m, cam := 3, time := BitVec.ofNat 64 t, dirty := stg 1, accepted := 0, timeout := 5, images := [] }
def comS (c : Pending) : State := { dev := { sems := sem0 .a, commit := some c, time := 900, ports := [(0, { stage := stg 1 })] } }

theorem witness_StagingValidationAndCancel :
    isRws (Reg.CAM_CSIi_CFG 1) = true ∧ (hostS {}).dev.holdsSem0 .b = false ∧ (hostS {}).dev.holdsSem0 .a = true ∧
    (hostS { stage := stg 1 }).dev.commit = none ∧ ((hostS { stage := stg 1 }).dev.port .a).stage ≠ [] ∧
    ((hostS {}).dev.port .a).stage = [] ∧ (comS (com .immediate 0)).dev.commit ≠ none ∧ (comS (com .immediate 0)).dev.holdsSem0 .a = true := by
  decide +kernel

theorem witness_StagingValidationAndCancel_check :
    let s (v : Nat) := hostS { stage := stg v, checking := [{ apply := false }, immOp] }
    Live (s 1) ∧ ((s 1).dev.port .a).checking = { apply := false } :: [immOp] ∧ ((s 1).dev.cand .a).verdict = none ∧
    ((s 7).dev.cand .a).verdict.isSome = true ∧ (hostS { stage := stg 1, checking := [immOp] }).dev.holdsSem0 .a = true ∧
    ((hostS { stage := stg 1, checking := [immOp] }).dev.cand .a).verdict = none ∧ (com .immediate 0).timeout ≠ 0 ∧
    (comS (com .immediate 0)).dev.holdsSem0 .b = false := by decide +kernel

/-- A time one cycle ahead is not due, the present is. -/
theorem witness_CommitTakesEffectAtOnce :
    let s := comS (com .immediate 0)
    Live s ∧ s.dev.commit = some (com .immediate 0) ∧ (com .immediate 0).due s.dev.time none = true ∧
    (com .atTime 900).due 900 none = true ∧ (com .atTime 901).due 900 none = false ∧
    (∀ e ∈ (com .immediate 0).dirty, ∃ i, i < 12 ∧ e.1 = Reg.CAM_CSIi_CFG i) ∧
    (com .immediate 0).dirty.Pairwise (fun e f => e.1 < f.1) ∧ (com .immediate 0).images = [] ∧ (∀ n, n < 32 → (s.dev.str n).cur = none) := by
  decide +kernel

def snapS (x : Snap) (off : Nat) : State := { snapA := x, dev := { regs := [(Reg.GLB_SNAP_ADDR, BitVec.ofNat 32 off)] } }

theorem witness_SnapshotCommands :
    let d : Dev := { time := 77 }
    (snapS {} 0).snap .a = {} ∧ ((snapS { taking := some d } 0).snap .a).taking = some d ∧ ((snapS { ready := some d } 0).snap .a).ready = some d ∧
    ((snapS { ready := some d } 0).snap .a).taking = none ∧ snapHolds 0 0 = true ∧ snapHolds 1 0 = false ∧
    ((snapS { ready := some d } 1).dev.regP .a Reg.GLB_SNAP_ADDR).toNat = 1 := by decide +kernel

theorem witness_SnapshotsStayLatched :
    let s : State := { State.reset with snapB := { ready := some {} } }
    exec (.take .b) s = .next { s with dev := { s.dev.snapCode .b 0x21 with ctr := 1 }, snapB := { taking := some {}, ready := some {} } } ∧
    Instr.take .b ≠ .snapReady .b ∧ Instr.take .b ≠ .heartbeatTimeout .b ∧ Instr.take .b ≠ .hostLinkDown .b ∧ Instr.take .b ≠ .warmReset ∧
    Instr.take .b ≠ .refclkLoss ∧ (∀ b, Instr.take .b ≠ .coldReset b) ∧ (∀ q k, Instr.take .b ≠ .hostReset q k) ∧ (∀ b, Instr.take .b ≠ .supplyReset b) :=
  ⟨rfl, nofun, nofun, nofun, nofun, nofun, nofun, nofun, nofun⟩

theorem witness_HostRegisterAccesses :
    let s : State := { dev := { ports := [(0, { pairLo := [(Reg.GLB_APPLY_TIME_LO, (5, true))] })] } }
    Live s ∧ (regRow? (Reg.CAM_CSIi_CRC_ERR 0)).any (fun r => r.has .rc) = true ∧ foreignBlock .b (Reg.CAM_CSIi_CRC_ERR 0) = false ∧
    isLo readPairs Reg.MC_RD_BYTES_LO = true ∧ isInst (Reg.CPS_EVTe_STAMP_LO 0, 0x10, 9) Reg.MC_RD_BYTES_LO = false ∧
    isLo writePairs Reg.GLB_APPLY_TIME_LO = true ∧ ownerChecked Reg.GLB_APPLY_TIME_LO = false ∧ s.dev.writeOk .a Reg.GLB_APPLY_TIME_LO 9 = true ∧
    foreignBlock .a Reg.GLB_APPLY_TIME_LO = false ∧
    Tbl.find? (s.dev.port .a).pairLo Reg.GLB_APPLY_TIME_LO = some (5, true) ∧ regRow? 0x1FFFFFC = none := by decide +kernel

/-- The last bytes of LPDDR6 and the first beyond them; an empty and a full ring. -/
theorem witness_MemoryWindowAndDoorbell :
    let q : Queue := { state := .active, sqBase := 0x4000, cqBase := 0x6000, sqLog := 4, cqLog := 4, sqCons := 5, sqTail := 5 }
    let s : State := { dev := { ports := [(0, { attached := true, linkUp := true })], queues := [(2, q)], owners := [(2, .a)]
                                regs := [(Reg.FW_STATUS, Fld.FW_STATUS_STATE.put 0 3)] } }
    Live s ∧ s.dev.fw.stopped = false ∧ s.dev.poison = [] ∧ s.dev.barOk .a true (s.dev.winBase .a) = true ∧ s.dev.barOk .a false (s.dev.winBase .a) = true ∧
    s.dev.barOk .a true (s.dev.winBase .a + 2 ^ 47) = false ∧ (2 ^ 32 - 4) + 4 ≤ 2 ^ 32 ∧ 2 ^ 32 < (2 ^ 32 - 4) + 5 ∧
    s.dev.doorbellCode .a 2 6 true = none ∧ s.dev.doorbellCode .b 2 6 true = some 1 ∧ s.dev.doorbellCode .a 3 6 true = some 2 ∧ s.dev.doorbellCode .a 2 (5 + 17) true = some 3 ∧
    s.dev.doorbellCode .a 2 6 false = some 5 := by decide +kernel

/-- Free, never held; held by either port, at the first and the last semaphore. -/
theorem witness_SemaphoreArbitration :
    let s : State := { dev := { sems := [(0, { holder := some .b, lastB := true }), (63, { holder := none, lastB := false })], ports := [(0, { attached := true }), (1, { linkUp := true })] } }
    Live s ∧ (s.dev.port .b).linkUp = true ∧ (s.dev.port .b).attached = false ∧ (s.dev.sem 5).holder = none ∧ (s.dev.sem 63).holder = none ∧ (s.dev.sem 0).holder = some .b ∧ (s.dev.sem 0).holder ≠ some .a ∧
    (s.dev.port .a).attached = true := by decide +kernel

def fwOn : Nat × Word := (Reg.FW_STATUS, Fld.FW_STATUS_STATE.put 0 3)
def ent (w : List Nat) : List Byte := rw (w ++ List.replicate (16 - w.length) 0)
/-- A Basket of one variant for a gang of one, its code 256 bytes. -/
def basket : List Nat := [0x4B534142, 1, 1, 0, 1, 0x100, 256, 0]
def qDev (q : Queue) : Dev :=
  { regs := [fwOn], mem := memOf [(0x100, basket)], queues := [(2, q), (3, { state := .active })], owners := [(2, .a), (ownKey 1 3, .a)]
    ctxs := [(3, ⟨0x100, 0x400, 0x800, 0xFF⟩)], ports := [(0, { attached := true, linkUp := true })], sems := sem0 .a }
def qS (q : Queue) : State := { dev := qDev q }
def q0 : Queue := { state := .active, sqBase := 0x4000, cqBase := 0x6000, sqCons := 17, sqTail := 19 }
def eRun : Entry := { count := 5, raw := ent [1 + 0x20000, 3, 77, 0, 0, 0, 0, 0, 0, 0, 9, 40] }
def eFlag : Entry := { count := 5, raw := ent [2 + 0x1000 + 0x10000, 3, 77, 1000, 0, 0, 0x40021, 0, 0, 0, 50, 0] }
def eDone : Entry := { eRun with started := true, result := some { status := 0xFF, aux := 6 } }

theorem witness_EntriesConsumedAndStarted :
    let s := qS { q0 with entries := [eRun] }
    let f : State := { dev := { qDev { q0 with entries := [eFlag] } with flags := [(33, 1), (1, 2)] } }
    Live s ∧ s.dev.awake = true ∧ s.dev.ringShut 2 = false ∧ q0.sqCons ≠ q0.sqTail ∧ q0.state ≠ .free ∧ s.dev.poison = [] ∧
    s.dev.maySchedule = true ∧ (s.dev.queue 2).head = some eRun ∧ s.dev.canStart (s.dev.queue 2) eRun = true ∧ s.dev.isFirst 2 eRun = true ∧ eRun.op = 1 ∧
    Tbl.find? s.dev.ctxs eRun.ctx = some ⟨0x100, 0x400, 0x800, 0xFF⟩ ∧ s.dev.canEver ⟨0x100, 0x400, 0x800, 0xFF⟩ = true ∧
    (s.dev.bestVariant ⟨0x100, 0x400, 0x800, 0xFF⟩).any (fun x => x.2.contains 7) = true ∧
    (f.dev.queue 2).head = some eFlag ∧ f.dev.isFirst 2 eFlag = true ∧ eFlag.op = 2 := by decide +kernel

theorem witness_CompletionsFlagsAndDeadlock :
    let s := qS { q0 with entries := [eDone, eRun], unsig := 2, icUsec := 10, vector := 7, cqProd := 15 }
    let u := qS { q0 with entries := [{ eDone with started := false }] }
    let t := qS { q0 with entries := [{ eRun with raw := ent [1 + 0x20000, 3, 77, 1000, 0, 0, 0, 0, 0, 0, 9, 40] }] }
    Live s ∧ s.dev.awake = true ∧ (s.dev.queue 2).entries = eDone :: [eRun] ∧ eDone.result = some { status := 0xFF, aux := 6 } ∧ eDone.started = true ∧
    s.dev.poison = [] ∧ (u.dev.queue 2).freeSlots ≠ 0 ∧ s.dev.owner 0 2 = some .a ∧ (s.dev.queue 2).icUsec ≠ 0 ∧ (s.dev.queue 2).unsig ≠ 0 ∧
    (s.dev.port .a).linkUp = true ∧ (s.dev.port .a).lost = false ∧ (t.dev.queue 2).head.any (fun e => decide (e.timeout ≠ 0) &&
      (t.dev.queue 2).entries.find? (fun (y : Entry) => decide (y.count = (5 : Word).toNat) && y.result.isNone) == some e) = true ∧
    t.dev.jobFor 2 5 = none := by decide +kernel

theorem witness_CompletionsFlagsAndDeadlock_set :
    let s := qS { q0 with entries := [{ count := 5, raw := ent [2 + 0x1000 + 0x10000, 3, 77, 0, 0, 0, 50, 0, 0, 0, 50, 0] }] }
    Live s ∧ s.dev.fwRunning = true ∧ s.dev.awake = true ∧ s.dev.deadlocked [2] = true ∧ (s.dev.queue 2).head.isSome = true := by decide +kernel

/-- An admin entry at the head of HP-A's queue. -/
def admE (op : Nat) (w : List Nat) : Entry := { count := 8, raw := ent ([op, 0, 5, 0] ++ w) }
def admS (op : Nat) (w : List Nat) (g : Dev → Dev) : State :=
  let d := qDev { q0 with entries := [eRun] }
  { dev := g { d with queues := (0, { state := .active, sqBase := 0x10000, cqBase := 0x11000, entries := [admE op w] }) :: d.queues } }
def theirs (d : Dev) : Dev := { d with owners := [(2, .b), (ownKey 1 3, .b), (ownKey 4 63, .b)], ports := (1, { lost := true }) :: d.ports }

theorem witness_QueueAdministration :
    let w := [4, 4 + 4 * 256 + 2047 * 65536, 0x8000, 0, 0x9000, 0]
    let s := admS 0x01 w id
    AdminReady s .a 0x01 (admE 0x01 w) ∧ s.dev.owner 0 4 ≠ some .b ∧ s.dev.ringOk (addrAt (admE 0x01 w).raw 0x18) 4 64 = true ∧
    s.dev.ringOk (addrAt (admE 0x01 w).raw 0x20) 4 32 = true ∧ (s.dev.queue 4).state = .free ∧ bits (wordAt (admE 0x01 w).raw 0x14) 16 11 = 2047 := by
  decide +kernel

theorem witness_QueueAdministration_states :
    AdminReady (admS 0x02 [2] theirs) .a 0x02 (admE 0x02 [2]) ∧ (admS 0x02 [2] theirs).dev.owner 0 2 = some .b ∧
    AdminReady (admS 0x02 [1] id) .a 0x02 (admE 0x02 [1]) ∧ (admS 0x02 [65535] id).dev.owner 0 65535 = none ∧ ((admS 0x02 [65535] id).dev.queue 65535).state = .free ∧
    AdminReady (admS 0x02 [3] id) .a 0x02 (admE 0x02 [3]) ∧ ((admS 0x02 [3] id).dev.queue 3).entries = [] ∧
    AdminReady (admS 0x03 [2] id) .a 0x03 (admE 0x03 [2]) ∧ ((admS 0x03 [2] id).dev.queue 2).state = .active ∧
    AdminReady (admS 0x04 [2] (fun d => d.updQueue 2 (fun x => { x with state := .parked }))) .a 0x04 (admE 0x04 [2]) ∧
    AdminReady (admS 0x05 [2, 6] id) .a 0x05 (admE 0x05 [2, 6]) ∧ (admS 0x05 [2, 6] id).dev.jobs = [] ∧ eRun.result = none ∧
    below (BitVec.ofNat 32 eRun.count) (BitVec.ofNat 32 (wordAt (admE 0x05 [2, 6]).raw 0x14)) = true := by decide +kernel

/-- An entry with a reserved bit: about the other port's queue, and about its own. -/
theorem witness_QueueAdministration_fields :
    (admS 0x02 [2, 1] theirs).dev.adminHead .a 0x02 = some (admE 0x02 [2, 1]) ∧ badAdmin (admE 0x02 [2, 1]).raw = true ∧
    (admS 0x02 [2, 1] theirs).dev.owner 0 2 = some .b ∧ (admS 0x02 [2, 1] id).dev.adminHead .a 0x02 = some (admE 0x02 [2, 1]) ∧
    (admS 0x02 [2, 1] id).dev.owner 0 2 ≠ some .b := by decide +kernel

theorem witness_ContextAndOwnershipAdministration :
    let w := [1023 + 0xFF0000, 0, 0x100, 0, 0x200, 0, 0x800, 0]
    let s := admS 0x10 w id
    AdminReady s .a 0x10 (admE 0x10 w) ∧ s.dev.owner 1 1023 ≠ some .b ∧ s.dev.firstBad 0x100 0x200 = none ∧ Tbl.find? s.dev.ctxs 1023 = none ∧
    s.dev.basketBad 0x100 0x200 = false ∧ s.dev.bindingsBad 0x800 = false := by decide +kernel

theorem witness_ContextAndOwnershipAdministration_moves :
    AdminReady (admS 0x11 [3] id) .a 0x11 (admE 0x11 [3]) ∧ (admS 0x11 [3] id).dev.ctxPending 3 = true ∧
    (admS 0x11 [3] (fun d => d.updQueue 2 (fun x => { x with entries := [] }))).dev.ctxPending 3 = false ∧ Tbl.find? (admS 0x11 [3] id).dev.ctxs 3 ≠ none ∧
    AdminReady (admS 0x18 [2] id) .a 0x18 (admE 0x18 [2]) ∧ movable 0 2 = true ∧ (admS 0x18 [2] id).dev.owner 0 2 = some .a ∧
    (admS 0x18 [2] theirs).dev.owner 0 2 = some .b ∧ AdminReady (admS 0x19 [63 + 0x40000] theirs) .a 0x19 (admE 0x19 [63 + 0x40000]) ∧
    bit (63 + 0x40000) 31 = false ∧ movable 4 63 = true ∧ (admS 0x19 [63 + 0x40000] theirs).dev.owner 4 63 = some .b ∧
    (admS 0x19 [63 + 0x40000] theirs).dev.isLost .b = true := by decide +kernel

def portS (x : PortSt) : State :=
  { dev := { ports := [(0, x)], fw := { booted := true }, sems := sem0 .a
             regs := [fwOn, (Reg.HPx_FW_ABI 0, 9), (Reg.HPx_ASQ_BASE_LO 0, 0x10000), (Reg.HPx_ACQ_BASE_LO 0, 0x11000), (Reg.HPx_AQ_SIZE 0, Fld.HPx_AQ_SIZE_CQ_LOG2.put (Fld.HPx_AQ_SIZE_SQ_LOG2.put 0 4) 4)] } }

theorem witness_PortAttachAndLoss :
    Live (portS { linkUp := true }) ∧ (portS { linkUp := true }).dev.attachCode .a 9 false = 1 ∧
    (portS { linkUp := true, lost := true }).dev.attachCode .a 9 true = 1 ∧ (portS { linkUp := true }).dev.attachCode .a 8 false = 2 ∧
    ((portS { attached := true }).dev.port .a).attached = true ∧ ((portS { linkUp := true }).dev.port .a).linkUp = true ∧
    ((portS { linkUp := true }).dev.port .a).attached = false ∧ (portS {}).dev.portOff .a = false ∧ (portS {}).dev.fw.booted = true := by
  decide +kernel

def unitS (k : Nat) (h : HUnit) (g : Dev → Dev) : State :=
  admS 0x31 [k] (fun d => g { d with units := [(k, h)], regs := (Reg.STC_FTEST_CTRL, Fld.STC_FTEST_CTRL_EN.put 0 1) :: d.regs })
def busy (d : Dev) : Dev := { d with jobs := [(0, job0)], cores := [(0, { gang := some 0 })] }

/-- The power of a test is free, but below 2^20 of its units: an idle device has room for it. -/
theorem test_room (d : Dev) (u : Nat) (h1 : d.pm.pF = 0) (h2 : d.pm.capF = 38912000) : d.testRoom u = true := by
  have := (Config.testPower u d.pm.step).isLt
  simp only [Dev.testRoom, h1, h2, decide_eq_true_eq]
  omega

theorem witness_HealthTransitions_test :
    let s := unitS 47 { confirm := true } id
    s.dev.mayTest 47 = true ∧ (unitS 47 {} id).dev.mayTest 47 = true := by
  refine ⟨?_, ?_⟩ <;> · unfold Dev.mayTest; rw [test_room _ _ rfl rfl]; decide +kernel

theorem witness_HealthTransitions :
    let s := unitS 47 { confirm := true } id
    let f := unitS 0 { st := .fenced } id
    Live s ∧ (s.dev.unit 47).confirm = true ∧ s.dev.fld Reg.STC_FTEST_CTRL Fld.STC_FTEST_CTRL_EN = 1 ∧
    (s.dev.unit 47).st = .healthy ∧ ((unitS 0 { st := .observed } id).dev.unit 0).st = .observed ∧
    ((unitS 0 { st := .fenced, unfence := true } id).dev.unit 0).unfence = true ∧ f.dev.coreFree 0 = true ∧ f.dev.keepsFence 0 = false ∧
    AdminReady f .a 0x31 (admE 0x31 [0]) ∧ f.dev.holdsSem0 .a = true ∧ (f.dev.unit 0).st = .fenced ∧ (f.dev.unit 0).unfence = false ∧
    (unitS 0 { st := .fenced } busy).dev.coreFree 0 = false ∧ (s.dev.unit 47).st ≠ .fenced ∧
    (unitS 0 {} (fun d => { d with sems := sem0 .b })).dev.holdsSem0 .a = false ∧ (7 - 0 : Int) % 7 = 0 := by decide +kernel

/-! #### Media -/

/-- A stream descriptor: receiver 0's port 0, VC 1. -/
def sdesc (dt exps w h unpack : Nat) : List Byte :=
  rw ([1 * 32 + dt * 512 + exps * 2 ^ 19 + unpack * 2 ^ 21, w + h * 65536, 100, 50, 2 + 0x10 * 16, 7 + 9 * 65536, 3 + 4 * 256, 100,
    0x30000, 0, 0x1000, 64, 0x40000, 0, 0x2000, 128, 0x50000, 0, 0x60000, 0, 0x61000, 0, 0, 0, 0x70000, 0, 1, 2, 3, 0, 0, 0])
def camS (m : Nat) (x : CamStr) : State :=
  { dev := { time := 5000, med := { str := [(0, x)] }
             regs := [(Reg.CAM_CSIi_CFG 0, Fld.CAM_CSIi_CFG_DESKEW.put (Fld.CAM_CSIi_CFG_MODE.put 0 m) 1), (Reg.CAM_CSIi_STATUS 0, (syncFld 0).put ((syncFld 1).put 0 1) 1)] } }
def strm (l : List Byte) : CamStr := { on := true, desc := l, begun := true, bufs := [(1, 3)], deadline := 5000 }
def frm (l : List Byte) (b : Option Nat) (e : List OExp) : OFrame :=
  { desc := l, frame := 6, sensor := 9, start := 4444, buf := b, flags := 256, exps := e, block := [1, 2], ispPs := 9, expPs := 9, gainPs := 9 }
def L1 : List Byte := sdesc 0x2A 1 16 4 0
def L2 : List Byte := sdesc 0x2C 2 16 4 1

/-- A single-exposure frame starts; the second exposure of an open frame of two starts. -/
theorem witness_CameraReception :
    let s := camS 1 (strm L1)
    let t := camS 2 { strm L2 with cur := some (frm L2 (some 2) [{ n := 1 }, {}]) }
    Live s ∧ s.dev.portExists 0 = true ∧ s.dev.fld (Reg.CAM_CSIi_CFG 0) Fld.CAM_CSIi_CFG_MODE = 1 ∧
    s.dev.fld (Reg.CAM_CSIi_CFG 0) Fld.CAM_CSIi_CFG_DESKEW = 1 ∧ s.dev.receives 0 = true ∧ s.dev.claimed 0 15 = [] ∧
    s.dev.claimedStart 0 1 = [0] ∧ (s.dev.str 0).next = none ∧ dVc (s.dev.str 0).desc = 1 ∧ (s.dev.str 0).cur = none ∧
    Tbl.find? (s.dev.str 0).bufs (s.dev.str 0).nextBuf = none ∧ t.dev.receives 0 = true ∧ t.dev.claimedStart 0 2 = [0] ∧
    (t.dev.str 0).cur = some (frm L2 (some 2) [{ n := 1 }, {}]) ∧ (frm L2 (some 2) []).desc = (t.dev.str 0).desc ∧ dVc L2 < 2 ∧
    ((frm L2 (some 2) [{ n := 1 }, {}]).exps.getD (2 - dVc L2) {}).begun = false := by decide +kernel

/-- The line before the last; an early frame end; a frame waiting to be completed; a deadline that has come. -/
theorem witness_CameraFrames :
    let f := frm L1 (some 2) [{ n := 2, got := 2, begun := true }]
    let s := camS 1 { strm L1 with cur := some f }
    Live s ∧ s.dev.receives 0 = true ∧ s.dev.claimed 0 1 = [0] ∧ (s.dev.str 0).cur = some f ∧ s.dev.poison = [] ∧
    f.desc = (s.dev.str 0).desc ∧ f.exps[1 - dVc L1]? = some { n := 2, got := 2, begun := true } ∧ ({ n := 2, got := 2, begun := true } : OExp).closed = false ∧ (0x2A : Nat) = dDt L1 ∧ dtLong 0x2A = true ∧ dDest L1 = 0 ∧
    f.buf = some 2 ∧ 2 + 1 < dH L1 ∧ s.dev.firstBad (addrAt L1 0x30 + 2 * wordAt L1 0x38 + 2 * fldAt L1 0x3C 0 24) 16 = none ∧
    (rawLine L1 (List.replicate 16 7)).length = 16 ∧ dVc L1 = 1 ∧ (s.dev.str 0).next = none ∧ (s.dev.str 0).on = true ∧
    dPeriod L1 ≠ 0 ∧ (s.dev.str 0).deadline ≤ s.dev.time.toNat ∧
    (camS 1 { strm L1 with closed := [f] }).dev.firstBad (addrAt L1 0x40 + 16384 * (f.frame % Nat.max 1 (dNstat L1))) 64 = none := by
  decide +kernel

def wr (a : Nat) : SensorWrite := { dev := 3, reg := 0x77, data := a, regBytes := 2, dataBytes := 2 }
def sb : SBatch := { stream := 0, target := 8, issue := 5, stamp := 4000, gain := false, bus := 2, writes := [wr 1, wr 2] }
def busS (x : SBus) (m : Nat) (y : CamStr) : State :=
  { dev := { regs := [(Reg.CAM_SCBj_CFG 2, Fld.CAM_SCBj_CFG_MODE.put 0 m)], owners := [(ownKey 3 2, .a)], med := { bus := [(2, x)], str := [(0, y)] } } }

theorem witness_SensorBusesAndMemoryJobs :
    let s := busS {} 1 { strm L1 with due := [sb, sb] }
    let t := busS { batches := [sb] } 2 {}
    let u := busS { host := some (wr 4, true), hostRuns := true } 0 {}
    Live s ∧ (s.dev.str 0).due = sb :: [sb] ∧ sb.bus = 2 ∧ (s.dev.bus 2).batches = [] ∧ (s.dev.bus 2).hostRuns = false ∧ s.dev.busOn 2 = true ∧
    (s.dev.str 0).on = true ∧ (s.dev.str 0).begun = true ∧ s.dev.fld (Reg.CAM_SCBj_CFG 2) Fld.CAM_SCBj_CFG_MODE = 1 ∧
    (t.dev.bus 2).batches = [sb] ∧ (t.dev.bus 2).host = none ∧ (s.dev.port .a).lost = false ∧ s.dev.mayWrite .a 3 2 = true ∧
    s.dev.mayWrite .b 3 2 = false ∧ Fld.CAM_SCBj_XFER_LEN.get 0 ≠ 3 ∧ (u.dev.bus 2).host = some (wr 4, true) ∧ (u.dev.bus 2).hostRuns = true := by
  decide +kernel

theorem witness_SensorBusesAndMemoryJobs_jobs :
    let s (r : Tbl (List Byte)) : State := { dev := { regs := [(Reg.ISPm_MJOB_RING_LO 3, 0x20000), (Reg.ISPm_MJOB_PROD_LO 3, 0x28000)]
                                                      mem := memOf [(0x28000, [1])], med := { mjob := r } } }
    Live (s []) ∧ (s []).dev.mjobRing 3 ≠ 0 ∧ (s []).dev.fw.stopping = false ∧ Tbl.find? (s []).dev.med.mjob 3 = none ∧
    countAhead ((s []).dev.reg (Reg.ISPm_MJOB_CONS 3)) ((s []).dev.mjobProd 3) = true ∧ Tbl.find? (s [(3, rw [2 ^ 18 + 77])]).dev.med.mjob 3 = some (rw [2 ^ 18 + 77]) := by
  decide +kernel

def pic1 : Pic := { w := 4, h := 2, y := [[1, 2, 3, 4], [5, 6, 7, 8]], u := [[9, 10]], v := [[11, 12]] }
def ddesc : List Byte :=
  rw [1 * 16 + 3 * 512, 64 + 64 * 65536, 0, 200, 0x30000, 0, 0, 0, 0x20000, 0, 0x28000, 0, 0x40000, 0, 0x1000, 64, 0x800, 0, 0x50000, 0, 0x58000, 0, 0, 0]
def hld (o : Nat) : Held :=
  { pic := pic1, desc := ddesc, order := o, crop := ⟨0, 0, 4, 2⟩, au := 9, time := rw [7, 8], key := true, first := false, grain := false, extra := false, concealed := 1, refConcealed := false }
def dcS (f : DCtx → DCtx) : State :=
  { dev := { regs := [(Reg.VID_DCTXn_AU_CONS 63, 2), (Reg.VID_DCTXn_PIC 63, 5)], mem := memOf [(0x28000, [3]), (0x20040, [0x70000, 0, 100, 0, 77, 0, 0, 0]), (0x58000, [5])]
             med := { dctx := [(63, f { on := true, desc := ddesc })] } } }
def au (k : Bool) : AuPic := { pic := pic1, crop := ⟨0, 0, 4, 2⟩, key := k, slots := 1, order := 4 }

theorem witness_VideoContexts :
    let s := dcS id
    let raw := s.dev.readStruct (agentDctx 63) (addrAt ddesc 0x20 + 32 * 2) 32
    Live s ∧ s.dev.poison = [] ∧ s.dev.dcTurn (dcEngine ddesc) = some 63 ∧ s.dev.reg (Reg.VID_DCTXn_AU_CONS 63) = 2 ∧
    s.dev.firstBad (addrAt ddesc 0x20 + 32 * 2) 32 = none ∧ fldAt raw 8 0 24 ≠ 0 ∧ wordAt raw 0xC = 0 ∧
    strayBits raw 8 ([(8, 0, 24), (0xC, 0, 2), (0x10, 0, 32), (0x14, 0, 32), (0x18, 0, 8)] ++ addrField 0) = false ∧
    s.dev.firstBad (addrAt raw 0) (fldAt raw 8 0 24) = none ∧ auReject (s.dev.dctx 63) (au true) = none ∧
    auReject (s.dev.dctx 63) (au false) = some auWAIT_KEY := by decide +kernel

theorem witness_VideoContexts_output :
    let s := dcS (fun x => { x with waitKey := false, held := [hld 4, hld 1] })
    let t := dcS (fun x => { x with waitKey := false, held := [hld 4, hld 1], bufs := [(0, 7)] })
    firstHeld (s.dev.dctx 63).held = some (hld 1) ∧ s.dev.dcFree 63 ddesc = true ∧ t.dev.dcFree 63 ddesc = false ∧ (hld 1).time.length = 8 ∧
    (s.dev.dctx 63).next = none ∧ s.dev.firstBad (addrAt ddesc 0x48 + 64 * (s.dev.dctx 63).slotIn ddesc) 64 = none := by decide +kernel

def edesc (ring : Nat) : List Byte := rw [0, 16 + 16 * 65536, 30 * 65536, 0, 0, 300, 0x20000, 0, 0x28000, 0, 0x30000, 0, ring, 0x38000, 0, 0]
def ecS (ring : Nat) : State :=
  { dev := { regs := [(Reg.VID_ECTXn_JOB_CONS 15, 2), (Reg.VID_ECTXn_OUT_POS 15, 250)], mem := memOf [(0x28000, [3]), (0x38000, [200]), (0x20080, [0x70000, 0, 64, 0x1000, 2, 0])]
             med := { ectx := [(15, { on := true, desc := edesc ring })] } } }

/-- A ring that the coded picture just fills, and one a byte too small. -/
theorem witness_VideoContexts_encode :
    let s := ecS 60
    let l := edesc 60
    let raw := s.dev.readStruct (agentEctx 15) (addrAt l 0x18 + 64 * 2) 64
    let used (n : Nat) := ((250 : Word) + BitVec.ofNat 32 n - s.dev.readCount (agentEctx 15) (addrAt l 0x34)).toNat
    Live s ∧ s.dev.encTurn = some 15 ∧ s.dev.poison = [] ∧ (s.dev.ectx 15).wait = none ∧ (s.dev.ectx 15).next = none ∧
    s.dev.jobReject l raw = none ∧ 2 * 11 ≤ ecRingBytes l ∧ used 10 ≤ ecRingBytes l ∧ ecRingBytes l < used 11 ∧
    s.dev.firstBad (addrAt l 0x18 + 64 * 2) 64 = none ∧ s.dev.firstBad (ecRing l) (ecRingBytes l) = none := by decide +kernel

def bdesc (wt : Nat) : List Byte :=
  rw [2 + 3 * 128 + 1 * 4096, 2 + 2 * 65536, 0xAA, 9, wt, 300, 0x00100010, 0x10, 0, 0, 0x20000, 0, 0x28000, 0, 0x30000, 0, 0x1000, 0, 0x50000, 0, 0x58000, 0, 0x60000, 0]
def sent (fl : Nat) : List Nat := [0x70000, 0, 1 + fl, 64, 0x100, 4 + 4 * 65536, 0, 4 + 4 * 65536, 40, 3, 0x71000, 0, 99, 0, 5, 6]
def bsS (fl : Nat) (f : BStr → BStr) : State :=
  { dev := { regs := [(Reg.TAU_BSTRn_SAMPLE_CONS 63, 2), (Reg.TAU_BSTRn_SEQ 63, 5)], mem := memOf [(0x28000, [3]), (0x20080, sent fl), (0x58000, [5])]
             med := { bstr := [(63, f { on := true, desc := bdesc 9 })], tauLast := 3 } } }
def slot0 : BSlot := { err := 0, tag := 3, time := rw [3, 4], count := 1 }

/-- An entry that does not wait and one that waits for its flag; a full batch and a flushed one. -/
theorem witness_TensorBatches :
    let s := bsS 0 id
    let t := bsS 32 id
    let full := bsS 0 (fun x => { x with buf := some 2, slots := [slot0, slot0] })
    let fl := bsS 0 (fun x => { x with buf := some 0, slots := [slot0], flush := true })
    Live s ∧ (s.dev.bsCan 63).any (fun r => !s.dev.bsWaits 63 r) = true ∧ s.dev.bsTurn = some 63 ∧
    (t.dev.bsCan 63).any (fun r => t.dev.bsWaits 63 r) = true ∧ bsWait (bdesc 9) ≠ 0 ∧ bsTimeout (bdesc 9) ≠ 0 ∧
    bsN (bdesc 9) ≤ (full.dev.bstr 63).slots.length ∧ (full.dev.bstr 63).on = true ∧ (full.dev.bstr 63).next = none ∧
    full.dev.firstBad (addrAt (bdesc 9) 0x48 + 1024 * 2) 1024 = none ∧ (fl.dev.bstr 63).flush = true ∧ slot0.time.length = 8 := by
  decide +kernel

/-! #### Power and time -/

def pmS (f : Pm → Pm) (g : Dev → Dev) : State := { dev := g { time := 0x123456789, pm := f {}, sems := sem0 .a } }

theorem witness_NoSourceIsOutrun : Live (pmS (fun p => { p with step := 15 }) id) ∧
    Instr.supplyWarn 3 ∈ [Instr.telemetrySample [], .estimate [] 0 0 0, .droopPersistence, .supplyWarn 3, .thermalSample []] :=
  ⟨⟨rfl, rfl⟩, by simp only [List.mem_cons, true_or, or_true]⟩

theorem witness_EnforcedPower : Live (pmS (fun p => { p with baseF := 99999, lastF := 333, disagree := true }) id) ∧
    (List.replicate 8 1000).length ≤ 8 := by decide

/-- Boost may act where the power leaves room for the prediction. -/
def boostedAt (x : Int) : State := pmS (fun p => { p with step := 3, sust := 3, pF := x })
  (fun d => { d with regs := [(Reg.PM_MODE, Fld.PM_MODE_BOOST_EN.put 0 1)] })
theorem boostedAt_predictF (x : Int) : (boostedAt 0).dev.predictF 2 = (boostedAt x).dev.predictF 2 := rfl
theorem boost_fits (d : Dev) (s : Nat) (h : d.pm.pF = -((d.predictF s : Nat) : Int)) : d.boostFits s = true := by
  simp only [Dev.boostFits, decide_eq_true_eq, h]
  omega
def boosted : State := boostedAt (-((boostedAt 0).dev.predictF 2 : Nat))
theorem witness_StepsAndTelemetry_boost :
    Live boosted ∧ boosted.dev.boostAllowed = true ∧ 0 < boosted.dev.managedStep ∧ boosted.dev.pm.step ≤ boosted.dev.managedStep ∧
    boosted.dev.starvedComp = false ∧ boosted.dev.boostFits (boosted.dev.managedStep - 1) = true := by
  refine ⟨⟨rfl, rfl⟩, rfl, by decide, by decide, rfl, ?_⟩
  exact boost_fits _ _ (congrArg (fun n : Nat => -(n : Int)) (boostedAt_predictF _))

/-- The regulator has been given the set point of the next faster step, or not yet. -/
def raisedS (f : Pm → Pm) : State := pmS (fun p => f { p with step := 5 }) id
theorem witness_StepsAndTelemetry_raise :
    let s := raisedS (fun p => { p with mv := some (raisedS id).dev.raiseMv })
    s.dev.pm.mv = some s.dev.raiseMv ∧ s.dev.demand < s.dev.pm.step ∧ (raisedS id).dev.pm.mv ≠ some (raisedS id).dev.raiseMv :=
  ⟨rfl, by decide +kernel, nofun⟩

theorem witness_StepsAndTelemetry :
    let s := pmS (fun p => { p with step := 5 }) id
    let r := pmS id (fun d => { d with regs := [(Reg.PM_RAILm_CFG 7, Fld.PM_RAILm_CFG_PMBUS_ADDR.put (Fld.PM_RAILm_CFG_EN.put 0 1) 5)] })
    let t := pmS (fun p => { p with disagree := true, armed := true }) id
    Live s ∧ s.dev.demand < s.dev.pm.step ∧ (pmS id id).dev.pm.step ≤ (pmS id id).dev.demand ∧
    r.dev.railEnabled 7 = true ∧ r.dev.fld (Reg.PM_RAILm_CFG 7) Fld.PM_RAILm_CFG_PMBUS_ADDR ≠ 0 ∧
    t.dev.pm.disagree = true ∧ t.dev.pm.armed = true ∧ s.dev.holdsSem0 .a = true ∧ s.dev.holdsSem0 .b = false ∧
    (pmS (fun p => { p with safe := true }) id).dev.pm.safe = true ∧ Fld.PM_TELEM_ACK_ACK.get 1 = 1 := by decide +kernel

theorem witness_DroopSuppliesAndHeat :
    let s := pmS (fun p => { p with droop := 1, warn := some 9, l1 := true, ceiling := 8 }) (fun d => { d with regs := [(Reg.PM_TJ, 0x2FF)] })
    Live s ∧ s.dev.pm.droop.getLsbD 15 = false ∧ s.dev.pm.warn = some 9 ∧ s.dev.pm.below = 0 ∧ s.dev.pm.l1 = true ∧
    (pmS (fun p => { p with l1 := true }) (fun d => { d with regs := [(Reg.PM_TJ, Fld.PM_TJ_TEMP.put 0 0x7FFF)] })).dev.t1 ≤
      (pmS (fun p => { p with l1 := true }) (fun d => { d with regs := [(Reg.PM_TJ, Fld.PM_TJ_TEMP.put 0 0x7FFF)] })).dev.tj ∧
    (List.replicate 19 (-32768) ++ [32767] : List Int).length = 20 ∧
    (∀ x ∈ (List.replicate 19 (-32768) ++ [32767] : List Int), -32768 ≤ x ∧ x < 32768) := by decide +kernel

theorem witness_IdleStates :
    let s := pmS id (fun d => { d with regs := [(Reg.PM_IDLE_CTRL, Fld.PM_IDLE_CTRL_AUTO.put 0 1)] })
    Live s ∧ s.dev.pm.idle = 0 ∧ s.dev.fld Reg.PM_IDLE_CTRL Fld.PM_IDLE_CTRL_AUTO = 1 ∧ (pmS (fun p => { p with idle := 1 }) id).dev.pm.idle = 1 ∧
    (pmS (fun p => { p with idle := 2, waking := true }) id).dev.pm.idle = 2 ∧ (pmS (fun p => { p with idle := 2, waking := true }) id).dev.pm.waking = true ∧
    s.dev.holdsSem0 .a = true ∧ s.dev.idleReady = true ∧ s.dev.deepHeld = false ∧ s.dev.holdsSem0 .b = false := by decide +kernel

def cpsS (f : Cps → Cps) (g : Dev → Dev) : State := { dev := g { time := 0x123456789, ticks := 5, cps := f {}, sems := sem0 .a } }

theorem witness_TimeBaseAndOutputs :
    let s := cpsS (fun c => { c with frac := 0xFFFFFFFF, remain := 7 }) id
    let t := cpsS (fun c => { c with step := some (-0x130000000) }) (fun d => { d with regs := [(Reg.CPS_CTRL, Fld.CPS_CTRL_SOURCE.put 0 1)] })
    Live s ∧ s.dev.cps.step = none ∧ t.dev.cps.step = some (-0x130000000) ∧ t.dev.bwrPend = [] ∧ s.dev.holdsSem0 .a = true ∧
    s.dev.held = false ∧ s.dev.follower = false ∧ s.dev.fld Reg.CPS_CTRL Fld.CPS_CTRL_SOURCE = 0 ∧ t.dev.fld Reg.CPS_CTRL Fld.CPS_CTRL_SOURCE ≠ 0 := by decide +kernel

/-- FSYNC 23 is due now and its pulse ends now; a second has begun. -/
theorem witness_TimeBaseAndOutputs_outputs :
    let r := [(Reg.CPS_FSYNCn_CTRL 23, (1 : Word)), (Reg.CPS_FSYNCn_PERIOD 23, 100), (Reg.CPS_FSYNCn_WIDTH 23, 9), (Reg.CPS_SYNC_CTRL, Fld.CPS_SYNC_CTRL_EN.put 0 1), (Reg.CPS_PPS_CTRL, Fld.CPS_PPS_CTRL_EN.put 0 1)]
    let s := cpsS (fun c => { c with fsync := [(23, ⟨4, false, 0, 0⟩)], syncDue := true }) (fun d => { d with time := 5 * 10 ^ 9, regs := r })
    let t := cpsS (fun c => { c with fsync := [(23, ⟨4, true, 0x123456789, 0⟩)] }) (fun d => { d with regs := r })
    Live s ∧ s.dev.fsPeriodic 23 = true ∧ s.dev.fsDue 23 ≤ s.dev.time.toNat ∧ (s.dev.fsync 23).active = false ∧ (t.dev.fsync 23).active = true ∧
    t.dev.fsPeriodic 23 = true ∧ t.dev.fsDue 23 ≤ t.dev.time.toNat ∧ (t.dev.fsync 23).endAt ≤ t.dev.time.toNat ∧ s.dev.ppsEn = true ∧
    s.dev.fw.stopping = false ∧ t.dev.fw.stopping = false ∧ s.dev.cps.ppsNext ≤ s.dev.time.toNat / 1000000000 ∧ s.dev.cps.ppsTick = none ∧ s.dev.cps.syncDue = true ∧
    s.dev.fld Reg.CPS_SYNC_CTRL Fld.CPS_SYNC_CTRL_EN = 1 := by decide +kernel

def st0 : Stamp := ⟨0x700000005, 7, true⟩
def evS (k m : Nat) : State :=
  cpsS (fun c => { c with fifo := [(0, List.replicate k st0), (8, List.replicate 63 st0)] })
    (fun d => { d with regs := [(Reg.CPS_EVTe_CTRL 0, Fld.CPS_EVTe_CTRL_EDGE.put (Fld.CPS_EVTe_CTRL_EN.put 0 1) m)] })
def ppsS (f : Cps → Cps) (x : Nat) : State :=
  cpsS f (fun d => { d with ticks := 99900009, regs := [(Reg.CPS_STATUS, Fld.CPS_STATUS_STATE.put 0 2), (Reg.CPS_CTRL, Fld.CPS_CTRL_GI.put (Fld.CPS_CTRL_GP.put (Fld.CPS_CTRL_STEP_EN.put (Fld.CPS_CTRL_SOURCE.put 0 1) x) 30) 3)] })

/-- A FIFO with one place left and a full one; an edge one cycle too early. -/
theorem witness_StampsAndPpsDiscipline :
    (evS 63 0).dev.fld (Reg.CPS_EVTe_CTRL 0) Fld.CPS_EVTe_CTRL_EN = 1 ∧ (evS 63 0).dev.fld (Reg.CPS_EVTe_CTRL 0) Fld.CPS_EVTe_CTRL_EDGE ≠ 3 ∧
    (Tbl.getD (evS 63 0).dev.cps.fifo 0 []).length < 64 ∧ 64 ≤ (Tbl.getD (evS 64 0).dev.cps.fifo 0 []).length ∧
    (∃ fall, edgeSelects 0 fall = true) ∧ (∃ fall, edgeSelects 0 fall = false) ∧
    (ppsS id 0).dev.refPps = true ∧ (ppsS id 0).dev.cps.lastEdge = none ∧ (ppsS id 0).dev.fld Reg.CPS_CTRL Fld.CPS_CTRL_STEP_EN = 0 ∧
    (ppsS (fun c => { c with lastEdge := some 10 }) 0).dev.ticks - 10 < 99900000 ∧ (ppsS id 0).dev.ppsState ≠ 3 ∧ (evS 0 0).dev.refPps = false ∧
    (Tbl.getD (evS 0 0).dev.cps.fifo 8 []).length < 64 := by decide +kernel

theorem witness_StampPop : Live (evS 1 0) ∧ Tbl.getD (evS 1 0).dev.cps.fifo 0 [] = st0 :: [] ∧ st0.sub < 8 ∧ Tbl.getD (evS 1 0).dev.cps.fifo 1 [] = [] := by
  decide +kernel

/-! #### Fabric -/

def upS : Word := Fld.FAB_PORTp_STATUS_NBR_VALID.put (Fld.FAB_PORTp_STATUS_STATE.put 0 2) 1
/-- Device 3 is routed to port 1, device 4 to port 2 and, while that is down, to port 1. -/
def routeL : List Byte := rw [0, 0, 0, 0x11, 0x36, 0x21, 0, 0]
def fabR : List (Nat × Word) :=
  [(Reg.FAB_CFG, Fld.FAB_CFG_PORT_EN.put (Fld.FAB_CFG_PRIORITY.put 2 7) 15), (Reg.FAB_PORTp_STATUS 0, upS), (Reg.FAB_PORTp_STATUS 1, upS),
   (Reg.FAB_PORTp_STATUS 2, Fld.FAB_PORTp_STATUS_STATE.put 0 1), (Reg.FAB_WINw_BASE_LO 0, 0x4000), (Reg.FAB_WINw_BASE_HI 0, Fld.FAB_WINw_BASE_HI_EN.put 0 1),
   (Reg.FAB_WINw_SIZE 0, 1), (Reg.FAB_RFLAG_BASE, 3), (Reg.FAB_RFLAG_COUNT, 9)]
def fabS (p : FPort) (f : Fab → Fab) (g : Dev → Dev) : State :=
  { dev := g { regs := fabR, time := 1000, fab := f { ports := [(0, p)], route := routeL }, sems := sem0 .a, owners := [(ownKey 8 0, .a)] } }
def fp0 : FPort := { rx := 3, tx := 65535, owe0 := 5, owe1 := 2000, sent := [({ ty := 0x10, lseq := 65533, payload := [1, 2] }, 0), ({ ty := 0x12, lseq := 65534 }, 7)] }
def fk : FPkt := { ty := 0x10, lseq := 65539, lack := 65533, dst := 2, src := 9, addr := 0x4004, eseq := 65535, ring := 1, payload := [1, 2, 3], start := true, hops := 3 }

theorem witness_FabricLinks :
    let s := fabS fp0 id id
    Live s ∧ s.dev.linkState 3 = 0 ∧ s.dev.portEnabled 3 = true ∧ s.dev.fw.stopping = false ∧ s.dev.linkState 2 = 1 ∧ s.dev.linkUp 0 = true ∧ FabQuiet s ∧
    (∀ e ∈ fp0.sent.dropWhile (fun e => decide ((65533 + 65536 - e.1.lseq) % 65536 < 32768)), e.2 < 8) := by decide +kernel

/-- The first and the last bytes of the window, and one beyond it; the first and the last event flag and one beyond them. -/
theorem witness_FabricDelivery :
    let s := fabS fp0 id id
    Live s ∧ InOrder s 0 fk ∧ s.dev.isolated = false ∧ fk.resv = false ∧ fk.mcast = false ∧ fk.dst = s.dev.fabId ∧
    (Tbl.find? s.dev.fab.expected (ackKey fk)).all (fun e => fk.start || decide (fk.eseq = e)) = true ∧ s.dev.poison = [] ∧
    s.dev.inWindow 0x4000 3 = true ∧ s.dev.inWindow 0x4FFD 3 = true ∧ s.dev.inWindow 0x4FFE 3 = false ∧
    s.dev.fabFlagOk 3 = true ∧ s.dev.fabFlagOk 11 = true ∧ s.dev.fabFlagOk 12 = false ∧ s.dev.fabFlagOk 2 = false ∧
    4 ≠ s.dev.fabId ∧ fk.hops ≠ 0 ∧ FabQuiet s ∧ s.dev.routeTo 4 = some 1 ∧ s.dev.nbrValid 1 = true ∧
    (s.dev.fport 1).fits { fk with dst := 4, vc := 0 } = true ∧
    (let g := fabS fp0 (fun f => { f with ports := (1, { greeted := true }) :: f.ports }) id
     Greeted g 1 ∧ FabQuiet g ∧ g.dev.routeTo 4 = some 1 ∧ (g.dev.fport 1).fits { fk with dst := 4, vc := 0 } = true) := by decide +kernel

def ring1 : SRing :=
  { used := true, next := 4, descs := [⟨3, 0x8000, false, some 5⟩], unacked := [(3, { ty := 0x10, dst := 9, eseq := 65535, ring := 1 })], periods := 14 }

theorem witness_FabricRepliesAndPruning :
    let s := fabS fp0 (fun f => { f with rings := [(1, ring1)], pruner := [(255, 3)] }) id
    let t := fabS fp0 (fun f => { f with mwait := [{ k := { fk with group := 1 }, src := none, left := [1, 2] }], route := List.replicate 16400 0x23 }) id
    Live s ∧ InOrder s 0 fk ∧ s.dev.isolated = false ∧ fk.dst = s.dev.fabId ∧ FabQuiet s ∧ fk.ring < 16 ∧ (1 % 256 = 1 ∨ 1 % 256 = 4) ∧
    (s.dev.sring fk.ring).about fk false = some ⟨3, 0x8000, false, some 5⟩ ∧ s.dev.poison = [] ∧ fk.group < 256 ∧
    (s.dev.port .a).lost = false ∧ s.dev.mayWrite .a 8 0 = true ∧ Tbl.find? s.dev.fab.pruner 255 = some 3 ∧ s.dev.mayWrite .b 8 0 = false ∧
    bit (t.dev.mcastEntry 1) 5 = true ∧ (∃ w ∈ t.dev.fab.mwait, w.k.group = 1 ∧ 2 ∈ w.left) := by decide +kernel

def hello : FPkt := { ty := 0x30, vc := 1, lseq := 3, payload := rw [5, 3, 0, 9 + 9 * 4096 + 2 * 2 ^ 20, 77, 0, 4, 0] }
def timeS : FPkt := { ty := 0x20, vc := 1, lseq := 3, payload := rw [900, 0, 8, 0] }

theorem witness_FabricElectionAndTime :
    let s := fabS fp0 id id
    let w (i : Nat) := wordAt hello.payload i
    let u := fabS fp0 (fun f => { f with root := some (200, 77, 9), beacon := 50 }) id
    let v := fabS { fp0 with t1 := some 7990 } id id
    let g := fabS { fp0 with greeted := true } id (fun d => { d with regs := (Reg.FAB_STATUS, Fld.FAB_STATUS_IS_ROOT.put 0 1) :: d.regs })
    Greeted g 0 ∧ g.dev.isRoot = true ∧ FabQuiet g ∧ (g.dev.fport 0).fits { ty := 0x21, vc := 1 } = true ∧ (v.dev.fport 0).time = [] ∧
    Live s ∧ InOrder s 0 hello ∧ hello.resv = false ∧ bits (w 0) 20 12 = 0 ∧ bits (w 0xC) 24 8 = 0 ∧ w 0x1C = 0 ∧ FabQuiet s ∧ s.dev.linkUp 0 = true ∧
    (s.dev.fport 0).fits { ty := 0x30, vc := 1, payload := s.dev.helloPayload } = true ∧ u.dev.fab.root = some (200, 77, 9) ∧ u.dev.isRoot = false ∧
    u.dev.fabPrio ≠ 0 ∧ (∀ p, p < 4 → (u.dev.fport p).advert = none) ∧ s.dev.nbrValid 0 = true ∧ (s.dev.fport 0).fits { ty := 0x22, vc := 1 } = true ∧
    (v.dev.fport 0).t1 = some 7990 ∧ ({ fk with stamps := [8000, 8010] } : FPkt).stamps = [8000, 8010] ∧ (v.dev.fport 0).delays = [] ∧
    (((8 * v.dev.time.toNat + 10 * 3 : Nat) : Int) - 7990 - (8010 - 8000)) % 2 = 0 := by decide +kernel

theorem witness_FabricElectionAndTime_sync :
    let s := fabS fp0 id (fun d => { d with regs := (Reg.FAB_STATUS, Fld.FAB_STATUS_PARENT_VALID.put 0 1) :: d.regs })
    let r := fabS fp0 id (fun d => { d with regs := (Reg.FAB_STATUS, Fld.FAB_STATUS_IS_ROOT.put 0 1) :: d.regs })
    let w := wordAt timeS.payload 8
    InOrder s 0 timeS ∧ timeS.resv = false ∧ bits w 5 27 = 0 ∧ wordAt timeS.payload 12 = 0 ∧ bit w 3 = true ∧
    (((8 * s.dev.time.toNat + 10 * 4 : Nat) : Int) - (8 * 900 + 10 * (w % 8) + s.dev.fld (Reg.FAB_PORTp_DELAY 0) Fld.FAB_PORTp_DELAY_DELAY : Nat)) % 8 = 0 ∧
    s.dev.follower = true ∧ s.dev.parent = 0 ∧ s.dev.fab.synced = false ∧ (fabS fp0 id id).dev.follower = false ∧ r.dev.isRoot = true ∧
    (r.dev.fport 0).fits { ty := 0x20, vc := 1, payload := List.replicate 16 0 } = true := by decide +kernel

/-- A ring with one descriptor fetched: WRITE of one byte, FLAG, and WRITE_FLAG of 512 bytes. -/
def srS (raw : List Nat) (g : Dev → Dev) (r : SRing) : State :=
  fabS { rx := 3 } (fun f => { f with rings := [(1, r)] }) (fun d => g { d with
    regs := [(Reg.FAB_SRINGr_BASE_LO 1, 0x8000), (Reg.FAB_SRINGr_CTRL 1, Fld.FAB_SRINGr_CTRL_LOG2.put 1 4), (Reg.FAB_SRINGr_PROD_LO 1, 0x9000), (Reg.FAB_SRINGr_STATUS 1, 1)] ++ d.regs
    mem := memOf [(0x8040, raw), (0x9000, [3])] })
def sr (raw : List Nat) : State := srS raw (fun d => { d with flags := [(0, 2)] }) { used := true, next := 1 }
def sendOk (s : State) (op : Nat) : Bool :=
  let raw := s.dev.bytes agentFab (s.dev.ringAddr 1 (s.dev.sring 1).next) 64
  let f := sendFields raw
  s.dev.ringReady 1 && decide (f.op = op) && !sendReserved raw && !f.mc && decide (f.dst ≠ s.dev.fabId) && (!f.waitEn || s.dev.flag f.waitFlag) &&
    (!f.writes || decide (0 < f.len ∧ f.len ≤ 16777216 ∧ s.dev.firstBad f.src f.len = none))

/-- A FLAG that the device sends to itself, as the first packet of its ring. -/
theorem witness_SendRings_self :
    let s := sr [2, 2, 0, 0, 0, 0, 0, 8]
    let f := sendFields (s.dev.bytes agentFab (s.dev.ringAddr 1 (s.dev.sring 1).next) 64)
    s.dev.ringReady 1 = true ∧ f.op = 2 ∧ sendReserved (s.dev.bytes agentFab (s.dev.ringAddr 1 (s.dev.sring 1).next) 64) = false ∧ f.mc = false ∧
    f.dst = s.dev.fabId ∧ s.dev.fab.loop = [] ∧ f.waitEn = false ∧ s.dev.fabFlagOk f.rflag = true ∧
    Tbl.find? s.dev.fab.expected (16 * s.dev.fabId + 1) = none := by decide +kernel

theorem witness_SendRings :
    sendOk (sr [1, 4, 0xA000, 0, 0x51F0, 0, 1]) 1 = true ∧ sendOk (sr [2 + 64 + 32, 3, 0, 0, 0, 0, 0, 8, 1, 9]) 2 = true ∧
    sendOk (sr [3, 5, 0xA000, 0, 0x51F0, 0, 512, 8, 1, 9]) 3 = true ∧
    (srS [] id { ring1 with unacked := [] }).dev.sring 1 = { ring1 with unacked := [] } ∧ ring1.periods < 15 ∧
    ring1.unacked = (3, { ty := 0x10, dst := 9, eseq := 65535, ring := 1 }) :: [] ∧
    ring1.descs.find? (fun z => decide (z.idx = 3)) = some ⟨3, 0x8000, false, some 5⟩ := by decide +kernel

/-! #### Firmware and resets -/

def fwS (st act : Nat) (f : Fw → Fw) (g : Dev → Dev) : State :=
  { dev := g { regs := [(Reg.FW_STATUS, Fld.FW_STATUS_ACT.put (Fld.FW_STATUS_STATE.put 0 st) act)], sems := sem0 .a, fw := f { booted := true }, ticks := 6000000005 } }

theorem witness_FirmwareLoadAndRestart :
    let s := fwS 0 0 id id
    let t := fwS 3 0 (fun f => { f with restarts := [5, 6] }) id
    Live s ∧ s.dev.holdsSem0 .a = true ∧ s.dev.fwState = 0 ∧ Fld.FW_LOAD_GO.get (Fld.FW_LOAD_GO.put 4196 1) = 1 ∧ s.dev.fw.booted = true ∧ s.dev.bootFailed = false ∧
    s.dev.holdsSem0 .b = false ∧ t.dev.fwState ≠ 0 ∧ (fwS 1 0 (fun f => { f with loading := some 4196 }) id).dev.fw.loading = some 4196 ∧
    (fwS 2 0 id id).dev.fwState = 2 ∧ (fwS 4 0 id id).dev.fwState = 4 ∧ (fwS 4 0 id id).dev.awake = true ∧ (fwS 4 0 id id).dev.fw.calWait = [] ∧
    t.dev.fwRunning = true ∧ t.dev.fw.staged = none ∧ t.dev.fwAct = 0 := by
  decide +kernel

def img1 : Image := { version := 9, svn := 3, abi := 5, digest := 77 }
def stagedAt (a : Nat) (d : Dev) : Dev :=
  { d with regs := [(Reg.FW_STATUS, Fld.FW_STATUS_ACT.put (Fld.FW_STATUS_STATE.put 0 3) a)], fw := { staged := some img1, booted := true } }

/-- A gang that is held, and one that is not; a second of calm. -/
theorem witness_LiveUpdate :
    let s := fwS 3 3 (fun f => { f with staged := some img1 }) (fun d => { d with jobs := [(0, { job0 with layerHeld := true })] })
    let u := fwS 3 3 (fun f => { f with staged := some img1 }) (fun d => { d with jobs := [(0, job0)] })
    Live s ∧ s.dev.fwAct = 3 ∧ (fwS 3 2 id id).dev.fwAct = 2 ∧ (fwS 3 2 id id).dev.calmLong = true ∧ s.dev.fw.staged = some img1 ∧ s.dev.allHeld = true ∧
    u.dev.fwAct = 3 ∧ u.dev.allHeld = false ∧
    AdminReady (admS 0x34 [] (fun d => { d with sems := sem0 .b })) .a 0x34 (admE 0x34 []) ∧
    (admS 0x34 [] (fun d => { d with sems := sem0 .b })).dev.holdsSem0 .a = false ∧
    AdminReady (admS 0x32 [0x40000, 0, 4097] (stagedAt 0)) .a 0x32 (admE 0x32 [0x40000, 0, 4097]) ∧ (admS 0x32 [] (stagedAt 0)).dev.fwAct < 2 ∧
    AdminReady (admS 0x33 [] (stagedAt 1)) .a 0x33 (admE 0x33 []) ∧
    (admS 0x33 [] (stagedAt 1)).dev.fwAct = 1 ∧ (admS 0x33 [] (stagedAt 0)).dev.fwAct ≠ 1 ∧ AdminReady (admS 0x34 [] (stagedAt 2)) .a 0x34 (admE 0x34 []) ∧
    (admS 0x34 [] (stagedAt 2)).dev.fwAct ≠ 3 ∧ AdminReady (admS 0x37 [0x40000, 0, 4097] (stagedAt 0)) .a 0x37 (admE 0x37 [0x40000, 0, 4097]) ∧
    (admS 0x37 [] id).dev.holdsSem0 .a = true := by decide +kernel

/-- A calibration image whose trims are all 0. -/
def lay : List Nat := [0x4C414355, 0, 256 + 4, 0, 0, 0, 0, 0, 5, 0, 0, 0, 0, 0, 0, 0, 0, 0, 0, 0, 4000, 4]
def calS : State :=
  fwS 3 0 (fun f => { f with layer := some ⟨3, [1, 2], 4000, [1, 2], 77⟩ }) (fun d => { d with mem := memOf [(0x40000, lay)], regs := [(Reg.FW_CAL_ADDR_LO, 0x40000), (Reg.FW_CAL_ADDR_LO + 2 ^ 25, 0x40000)] ++ d.regs })

theorem witness_TrustAndDebugAccess :
    let e := [1, 2, 3, 4, 5, 6, 7, 8, 0x40000, 0]
    let s := admS 0x36 e (fun d => { d with fw := { d.fw with key := some 7 } })
    AdminReady s .a 0x36 (admE 0x36 e) ∧ s.dev.fw.key ≠ none ∧ (admS 0x36 e id).dev.fw.key = none ∧ addrAt (admE 0x36 e).raw 0x30 % 4096 = 0 ∧
    s.dev.firstBad (addrAt (admE 0x36 e).raw 0x30) 4096 = none ∧
    s.dev.poison = [] ∧ AdminReady (admS 0x35 [] id) .a 0x35 (admE 0x35 []) ∧ (admS 0x35 [] id).dev.holdsSem0 .a = true ∧
    calS.dev.fwRunning = true ∧ calS.dev.awake = true ∧ calS.dev.holdsSem0 .b = false ∧ calS.dev.calAddr .a = 0x40000 ∧
    calS.dev.firstBad 0x40000 256 = none ∧
    calS.dev.firstBad 0x40000 (256 + wordAt (calS.dev.fwBytes 0x40000 256) 0x54) = none ∧ layerMalformed (calS.dev.fwBytes 0x40000 256) = false ∧
    bv256 (((calS.dev.fwBytes 0x40000 256).drop 0x20).take 32) = 5 ∧ (fwS 3 0 id id).dev.fw.layer = none ∧
    calS.dev.fw.layer = some ⟨3, [1, 2], 4000, [1, 2], 77⟩ ∧ calS.dev.mayDebug none = true ∧ calS.dev.mayDebug (some .b) = false ∧
    (fwS 3 0 (fun f => { f with chalLive := true }) id).dev.fw.chalLive = true ∧ calS.dev.fw.chalLive = false := by decide +kernel

theorem witness_StopAndRecords :
    let s := admS 0x30 [] id
    let v := admS 0x30 [] (fun d => { d with fw := { d.fw with stopping := true }, queues := d.queues.filter (fun e => isAdmin e.1) })
    let t := fwS 3 0 (fun f => { f with stopped := true }) (fun d => { d with regs := (Reg.STC_STOP_STATUS, Fld.STC_STOP_STATUS_STOP_STEP.put 0 1) :: d.regs })
    let u := fwS 3 0 id (fun d => { d with regs := (Reg.STC_HEALTH_SUM, Fld.STC_HEALTH_SUM_RECORD_DIRTY.put 0 1) :: d.regs })
    AdminReady s .a 0x30 (admE 0x30 []) ∧ s.dev.holdsSem0 .a = true ∧ s.dev.fw.stopping = false ∧
    AdminReady v .a 0x30 (admE 0x30 []) ∧ v.dev.fw.stopping = true ∧ v.dev.jobs = [] ∧ v.dev.liveQueues = [] ∧ t.dev.fw.stopped = true ∧
    t.dev.fld Reg.STC_STOP_STATUS Fld.STC_STOP_STATUS_STOP_STEP = 1 ∧ u.dev.fwRunning = true ∧ u.dev.fw.stopped = false ∧ u.dev.hasFlash = true ∧
    u.dev.fld Reg.STC_HEALTH_SUM Fld.STC_HEALTH_SUM_RECORD_DIRTY = 1 := by decide +kernel

def rec0 : HRec := { clean := true, seq := 4, starts := 2, age := 9, units := List.replicate 48 (2, 7) }
theorem witness_ResetsAndBoot :
    let s := fwS 3 0 id id
    let b : State := { dev := { keep := { recs := [(0, rec0)] } } }
    Live s ∧ s.dev.holdsSem0 .a = true ∧ s.dev.holdsSem0 .b = false ∧ (0 : Word) ≠ 0xA55A#32 ∧ s.dev.fw.booted = true ∧ b.dev.fw.booted = false ∧
    b.dev.keep.recCode true < 16 ∧ b.dev.keep.recCode true = 0 ∧ b.dev.keep.bestRec HRec.valid = some (0, rec0) ∧ b.dev.keep.recCode false ≠ 0 ∧
    b.dev.keep.recCode false < 16 := by decide +kernel

theorem witness_ResetsAndBoot_refclk :
    let s : State := { dev := { refLost := true } }
    s.dev.refLost = true ∧ (∀ b, Instr.expired ≠ .coldReset b) ∧ Instr.expired ≠ .refclkLoss ∧ exec .expired s = .fault .refclkLost :=
  ⟨rfl, nofun, nofun, rfl⟩

theorem witness_MemoryStaysCanonical :
    let s : State := { dev := { mem := [(3, 7), (5, 1)] }, pending := [.expired] }
    s.dev.memWf = true ∧ step s = .next { dev := { mem := [(3, 7), (5, 1)], ctr := 1 } } := ⟨by decide, rfl⟩

theorem witness_StepTakesFrontCommand :
    step { State.reset with pending := [.take .b, .expired] } = exec (.take .b) { State.reset with pending := [.expired] } := rfl

theorem witness_ResetState : Memory.wf (fun _ => 0) [(3, 7), (5, 1)] = true ∧ Memory.wf (fun _ => 0) [] = true ∧
    Memory.wf (fun _ => 0) [(5, 1), (3, 7)] = false ∧ Memory.wf (fun _ => 0) [(3, 0)] = false ∧ Memory.wf (fun _ => 7) [(3, 0)] = true ∧ State.reset.dev.fld Reg.PM_CAP Fld.PM_CAP_CAP = 760 := by decide +kernel
end Sys2Proof.Tests
end

/-! SUPPORT. The scope: host accesses of BAR0 registers (O27) and the state after reset (O60). -/

namespace Sys2Proof.Machine

open Sys2Proof.Safety

/-! ### Tables and memories are equal when they read alike -/

/-- A table with rising keys lists exactly the pairs that it answers. -/
theorem Tbl.mem_iff_find? {α : Type} {t : Tbl α} (h : t.Rising) (k : Nat) (v : α) :
    (k, v) ∈ t ↔ Tbl.find? t k = some v := by
  induction t with
  | nil => simp [Tbl.find?]
  | cons e t ih =>
    obtain ⟨i, w⟩ := e
    obtain ⟨hlt, ht⟩ := List.pairwise_cons.1 h
    by_cases hi : i = k
    · subst hi
      have hnot : (i, v) ∉ t := fun hm => Nat.lt_irrefl _ (hlt (i, v) hm)
      simp [Tbl.find?, hnot, eq_comm]
    · simp [Tbl.find?, hi, Ne.symm hi, ih ht]

/-- The first key of a table with rising keys is the least that it answers. -/
theorem Tbl.head_le_of_find? {α : Type} {k i : Nat} {v w : α} {t : Tbl α} (h : Tbl.Rising ((k, v) :: t))
    (hf : Tbl.find? ((k, v) :: t) i = some w) : k ≤ i := by
  rcases List.mem_cons.1 ((Tbl.mem_iff_find? h i w).2 hf) with he | ht
  · exact Nat.le_of_eq (congrArg Prod.fst he).symm
  · exact Nat.le_of_lt ((List.pairwise_cons.1 h).1 (i, w) ht)

/-- Behind its first pair a table with rising keys answers nothing at that pair's key. -/
theorem Tbl.find?_tail_head {α : Type} {k : Nat} {v : α} {t : Tbl α} (h : Tbl.Rising ((k, v) :: t)) :
    Tbl.find? t k = none := by
  obtain ⟨hlt, ht⟩ := List.pairwise_cons.1 h
  cases hf : Tbl.find? t k with
  | none => rfl
  | some w => exact absurd (hlt (k, w) ((Tbl.mem_iff_find? ht k w).2 hf)) (Nat.lt_irrefl k)

theorem Tbl.eq_of_find?_eq {α : Type} {m n : Tbl α} (hm : m.Rising) (hn : n.Rising)
    (h : ∀ k, Tbl.find? m k = Tbl.find? n k) : m = n := by
  induction m generalizing n with
  | nil =>
    cases n with
    | nil => rfl
    | cons f n =>
      have hf := h f.1
      simp only [Tbl.find?, if_true] at hf
      cases hf
  | cons e m ih =>
    obtain ⟨k, v⟩ := e
    have hk : Tbl.find? n k = some v := by rw [← h k]; simp only [Tbl.find?, if_true]
    cases n with
    | nil => cases hk
    | cons f n =>
      obtain ⟨i, w⟩ := f
      have hi : Tbl.find? ((k, v) :: m) i = some w := by rw [h i]; simp only [Tbl.find?, if_true]
      have hki : k = i := Nat.le_antisymm (Tbl.head_le_of_find? hm hi) (Tbl.head_le_of_find? hn hk)
      subst hki
      have hvw : v = w := by
        simp only [Tbl.find?, if_true] at hi
        exact Option.some.inj hi
      subst hvw
      have htail : ∀ j, Tbl.find? m j = Tbl.find? n j := by
        intro j
        by_cases hj : k = j
        · rw [← hj, Tbl.find?_tail_head hm, Tbl.find?_tail_head hn]
        · have hj' := h j
          simp only [Tbl.find?, if_neg hj] at hj'
          exact hj'
      rw [ih (List.pairwise_cons.1 hm).2 (List.pairwise_cons.1 hn).2 htail]

/-- In the canonical form a byte is listed where it reads other than the blank, and only there. -/
theorem Memory.find?_of_wf {bl : Nat → Byte} {m : Tbl Byte} (h : Memory.wf bl m = true) (a : Nat) :
    Tbl.find? m a = if Tbl.getD m a (bl a) = bl a then none else some (Tbl.getD m a (bl a)) := by
  obtain ⟨hr, hne⟩ := (Memory.wf_iff bl m).1 h
  cases hf : Tbl.find? m a with
  | none => simp [Tbl.getD, hf]
  | some b =>
    have hb : b ≠ bl a := hne (a, b) ((Tbl.mem_iff_find? hr a b).2 hf)
    simp [Tbl.getD, hf, hb]

theorem Memory.eq_of_getD_eq {bl : Nat → Byte} {m n : Tbl Byte} (hm : Memory.wf bl m = true)
    (hn : Memory.wf bl n = true) (h : ∀ a, Tbl.getD m a (bl a) = Tbl.getD n a (bl a)) : m = n :=
  Tbl.eq_of_find?_eq ((Memory.wf_iff bl m).1 hm).1 ((Memory.wf_iff bl n).1 hn).1 fun a => by
    rw [Memory.find?_of_wf hm, Memory.find?_of_wf hn, h]

/-! ### The state after reset -/

theorem reset_word (k : Nat) : State.reset.dev.word k = resetReg (k % regSpace) := rfl

theorem reset_byte (a : Nat) : State.reset.dev.byte a = 0 := rfl

theorem reset_flag (f : Nat) : State.reset.dev.flag f = false := by
  simp [Dev.flag, State.reset, Tbl.getD, Tbl.find?, bit]

/-- The word that PM_CAP holds at reset: 760 in CAP (Table 12.4). -/
theorem resetReg_PM_CAP : resetReg (Reg.PM_CAP % regSpace) = 760 := by decide +kernel

/-- The word that FW_STATUS holds at reset: STATE is 0, WAIT_IMAGE. -/
theorem resetReg_FW_STATUS : resetReg (Reg.FW_STATUS % regSpace) = 0 := by decide +kernel

/-- Settles O60: every table of the reset state is empty, so a read answers what an unlisted key stands for; two canonical
memories that read alike list the same bytes in the same order. -/
theorem resetState : Obligations.ResetState := by
  unfold Obligations.ResetState
  refine ⟨⟨rfl, reset_byte, fun _ _ _ hm hn h => Memory.eq_of_getD_eq hm hn h⟩,
    reset_word, rfl, ?cap, rfl, rfl, ?fw, rfl, fun _ => rfl, reset_flag, fun _ => rfl, fun _ => rfl⟩
  case cap =>
    rw [Dev.fld, Dev.reg, reset_word, resetReg_PM_CAP]
    decide
  case fw =>
    rw [Dev.fwState, Dev.fld, Dev.reg, reset_word, resetReg_FW_STATUS]
    decide

/-! ### The state after a command, and registers of a port -/

/-- A command that changes the device alone completes on a live state, with what holds after that change. -/
theorem completes_of_act {c : Instr} {s : State} {P : State → Prop} {f : Dev → Dev} (hs : Live s)
    (hc : exec c s = act s f) (hP : P (after s (f s.dev))) : Completes c s P :=
  fun _ => ⟨_, hc.trans (act_after hs f), hP⟩

@[simp] theorem after_word (s : State) (d : Dev) (k : Nat) : (after s d).dev.word k = d.word k := rfl
@[simp] theorem after_reg (s : State) (d : Dev) (o : Nat) : (after s d).dev.reg o = d.reg o := rfl
@[simp] theorem after_regP (s : State) (d : Dev) (p : Port) (o : Nat) : (after s d).dev.regP p o = d.regP p o := rfl
@[simp] theorem after_port (s : State) (d : Dev) (p : Port) : (after s d).dev.port p = d.port p := rfl
@[simp] theorem after_regs (s : State) (d : Dev) : (after s d).dev.regs = d.regs := rfl
@[simp] theorem after_mem (s : State) (d : Dev) : (after s d).dev.mem = d.mem := rfl
@[simp] theorem after_out (s : State) (d : Dev) : (after s d).dev.out = d.out := rfl

theorem Dev.word_setRegP (d : Dev) (p : Port) (o k : Nat) (v : Word) :
    (d.setRegP p o v).word k = if regKey p o = k then v else d.word k := d.word_setReg (regKey p o) k v

theorem Dev.regP_setRegP (d : Dev) (p : Port) (o k : Nat) (v : Word) :
    (d.setRegP p o v).regP p k = if regKey p o = regKey p k then v else d.regP p k := d.word_setRegP p o (regKey p k) v

@[simp] theorem Dev.port_setRegP (d : Dev) (p q : Port) (o : Nat) (v : Word) : (d.setRegP p o v).port q = d.port q := rfl
@[simp] theorem Dev.word_updPort (d : Dev) (p : Port) (f : PortSt → PortSt) (k : Nat) :
    (d.updPort p f).word k = d.word k := rfl

@[simp] theorem Dev.port_updPort_self (d : Dev) (p : Port) (f : PortSt → PortSt) : (d.updPort p f).port p = f (d.port p) := by
  simp [Dev.port_updPort]

@[simp] theorem Dev.port_updPort_other (d : Dev) (p : Port) (f : PortSt → PortSt) :
    (d.updPort p f).port p.other = d.port p.other := by
  cases p <;> simp [Dev.port_updPort, Port.other]

@[simp] theorem Dev.answer_out (d : Dev) (p : Port) (v : Word) : (d.answer p v).out = .regData p v :: d.out := rfl
@[simp] theorem Dev.answer_mem (d : Dev) (p : Port) (v : Word) : (d.answer p v).mem = d.mem := rfl
@[simp] theorem Dev.answer_regs (d : Dev) (p : Port) (v : Word) : (d.answer p v).regs = d.regs := rfl
@[simp] theorem Dev.answer_word (d : Dev) (p : Port) (v : Word) (k : Nat) : (d.answer p v).word k = d.word k := rfl
@[simp] theorem Dev.answer_regP (d : Dev) (p q : Port) (v : Word) (o : Nat) : (d.answer p v).regP q o = d.regP q o := rfl
@[simp] theorem Dev.answer_port (d : Dev) (p q : Port) (v : Word) : (d.answer p v).port q = d.port q := rfl

/-! ### What each register access does where it is accepted -/

theorem exec_bar0BadAccess (p : Port) (s : State) :
    exec (.bar0BadAccess p) s = act s (fun d => { d with out := .unsupported p :: d.out }) := rfl

theorem exec_pairLoWrite (p : Port) (off : BitVec 25) (v : Word) (s : State) :
    exec (.pairLoWrite p off v) s =
      act s (fun d => if isLo writePairs off.toNat then d.pairLoWrite p off.toNat v else d) := rfl

theorem exec_pairHiWrite (p : Port) (off : BitVec 25) (v : Word) (s : State) :
    exec (.pairHiWrite p off v) s =
      act s (fun d => if isHi writePairs off.toNat then d.pairHiWrite p off.toNat v else d) := rfl

theorem exec_registerWrite (p : Port) (off : BitVec 25) (v : Word) (s : State) :
    exec (.registerWrite p off v) s = act s (fun d => d.regWrite p off.toNat v) := rfl

theorem exec_rcRead_of_rc {p : Port} {off : BitVec 25} {r : RegRow} (s : State) (hr : regRow? off.toNat = some r)
    (hrc : r.has .rc = true) (hf : foreignBlock p off.toNat = false) :
    exec (.rcRead p off) s = act s (fun d =>
      (d.setRegP p off.toNat (d.regP p off.toNat &&& ~~~ r.accMask .rc)).answer p (d.readReg p off.toNat)) := by
  change execRcRead p off s = _
  simp [execRcRead, hr, hrc, hf]

theorem exec_pairLoRead_of_lo {off : BitVec 25} (p : Port) (s : State) (hlo : isLo readPairs off.toNat = true)
    (hstamp : isInst (Reg.CPS_EVTe_STAMP_LO 0, 0x10, 9) off.toNat = false) :
    exec (.pairLoRead p off) s = act s (fun d =>
      (d.updPort p (fun x => { x with latch := Tbl.set x.latch off.toNat (d.standing p (off.toNat + 4) 0) })).answer p
        (d.standing p off.toNat 0)) := by
  change execPairLoRead p off s = _
  simp [execPairLoRead, hlo, hstamp]

theorem Dev.pairLoWrite_of_writeOk {d : Dev} {p : Port} {off : Nat} {v : Word} (hf : foreignBlock p off = false)
    (ho : ownerChecked off = true → (d.port p).lost = false) (hw : d.writeOk p off v = true) :
    d.pairLoWrite p off v = d.updPort p (fun x => { x with pairLo := Tbl.set x.pairLo off (v, true) }) := by
  have hlost : (ownerChecked off && (d.port p).lost) = false := by
    cases h : ownerChecked off with
    | false => rfl
    | true => exact ho h
  simp [Dev.pairLoWrite, hf, hlost, hw]

/-- A _HI write with a fresh _LO half pending stores both halves, each within its register's writable bits. -/
theorem Dev.pairHiWrite_of_fresh {d : Dev} {p : Port} {off : Nat} {v lo : Word} {rl rh : RegRow}
    (hf : foreignBlock p off = false) (ho : ownerChecked off = false) (hw : d.writeOk p off v = true)
    (hl : regRow? (off - 4) = some rl) (hh : regRow? off = some rh)
    (hlo : Tbl.find? (d.port p).pairLo (off - 4) = some (lo, true)) :
    d.pairHiWrite p off v =
      (((d.updPort p (fun x => { x with
            pairLo := Tbl.set x.pairLo (off - 4) (lo &&& (rl.accMask .rw ||| rl.accMask .wo), false) })).setRegP p (off - 4)
          (lo &&& (rl.accMask .rw ||| rl.accMask .wo))).setRegP p off (v &&& (rh.accMask .rw ||| rh.accMask .wo))).written off 0 := by
  simp [Dev.pairHiWrite, hf, ho, hw, hl, hh, hlo]

/-- A write of a register of W1C bits alone clears the bits written 1. -/
theorem Dev.regWrite_of_w1c {p : Port} {off : Nat} {r : RegRow} (d : Dev) (v : Word) (hr : regRow? off = some r)
    (hrws : r.has .rws = false) (hrw : r.has .rw = false) (hw1c : r.has .w1c = true) (hlo : isLo writePairs off = false)
    (hhi : isHi writePairs off = false) (hadj : off ≠ Reg.CPS_ADJ_CMD) (hf : foreignBlock p off = false)
    (hrow : hasOwnRow off r = false) :
    d.regWrite p off v = d.setRegP p off (d.regP p off &&& ~~~ (v &&& r.accMask .w1c)) := by
  simp [Dev.regWrite, hr, hrws, hlo, hhi, hadj, hf, hrow, Dev.clearW1c, hw1c, Dev.writeRw, hrw]

/-! ### The registers that the statement names -/

/-- A register row at `off` whose one field is all 32 bits, RW. -/
def wordRow (off : Nat) : RegRow := ⟨off, 0, 1, 0, 1, [⟨⟨0, 32⟩, .rw, 0⟩]⟩

theorem regRow?_GLB_APPLY_TIME_LO : regRow? Reg.GLB_APPLY_TIME_LO = some (wordRow Reg.GLB_APPLY_TIME_LO) := by decide +kernel
theorem regRow?_GLB_APPLY_TIME_HI : regRow? Reg.GLB_APPLY_TIME_HI = some (wordRow Reg.GLB_APPLY_TIME_HI) := by decide +kernel

theorem wordRow_mask (off : Nat) (v : Word) : v &&& ((wordRow off).accMask .rw ||| (wordRow off).accMask .wo) = v := by
  have h : (wordRow off).accMask .rw ||| (wordRow off).accMask .wo = BitVec.allOnes 32 := by
    simp [wordRow, RegRow.accMask, Fld.mask, pow2]
  rw [h, BitVec.and_allOnes]

/-- PM_EVENT: nine one-bit W1C fields (Table 12.4). -/
def pmEventRow : RegRow := ⟨Reg.PM_EVENT, 0, 1, 0, 1, (List.range 9).map (fun i => ⟨⟨i, 1⟩, .w1c, 0⟩)⟩

theorem regRow?_PM_EVENT : regRow? Reg.PM_EVENT = some pmEventRow := by decide +kernel

theorem Dev.regWrite_PM_EVENT (d : Dev) (p : Port) (v : Word) :
    d.regWrite p Reg.PM_EVENT v = d.setReg Reg.PM_EVENT (d.reg Reg.PM_EVENT &&& ~~~ (v &&& pmEventRow.accMask .w1c)) :=
  d.regWrite_of_w1c v regRow?_PM_EVENT (by decide) (by decide) (by decide) (by decide) (by decide) (by decide)
    (by cases p <;> decide) (by decide)

theorem Dev.writeOk_GLB_APPLY_TIME_HI (d : Dev) (p : Port) (v : Word) : d.writeOk p Reg.GLB_APPLY_TIME_HI v = true := by
  cases p <;> rfl

/-- A write of GLB_APPLY_TIME's _HI half stores both halves whole (R448). -/
theorem Dev.pairHiWrite_GLB_APPLY_TIME {d : Dev} {p : Port} {lo : Word} (v : Word)
    (hlo : Tbl.find? (d.port p).pairLo Reg.GLB_APPLY_TIME_LO = some (lo, true)) :
    d.pairHiWrite p Reg.GLB_APPLY_TIME_HI v =
      ((d.updPort p (fun x => { x with pairLo := Tbl.set x.pairLo Reg.GLB_APPLY_TIME_LO (lo, false) })).setRegP p
        Reg.GLB_APPLY_TIME_LO lo).setRegP p Reg.GLB_APPLY_TIME_HI v := by
  have h := Dev.pairHiWrite_of_fresh (v := v) (by cases p <;> decide) (by decide) (d.writeOk_GLB_APPLY_TIME_HI p v)
    regRow?_GLB_APPLY_TIME_LO regRow?_GLB_APPLY_TIME_HI hlo
  rw [wordRow_mask, wordRow_mask] at h
  exact h

/-! ### Host accesses -/

theorem rcRead_clears {s : State} {p : Port} {off : BitVec 25} {r : RegRow} (hs : Live s) (hr : regRow? off.toNat = some r)
    (hrc : r.has .rc = true) (hf : foreignBlock p off.toNat = false) :
    Completes (.rcRead p off) s (fun t =>
      t.dev.out = .regData p (s.dev.readReg p off.toNat) :: s.dev.out ∧
      t.dev.regP p off.toNat = s.dev.regP p off.toNat &&& ~~~ r.accMask .rc ∧
      (∀ k, k ≠ regKey p off.toNat → t.dev.word k = s.dev.word k) ∧ t.dev.mem = s.dev.mem) := by
  refine completes_of_act hs (exec_rcRead_of_rc s hr hrc hf) ⟨rfl, ?cleared, fun k hk => ?others, rfl⟩
  case cleared => simp [Dev.regP_setRegP]
  case others => simp [Dev.word_setRegP, Ne.symm hk]

theorem pairLoRead_latches {s : State} {p : Port} {off : BitVec 25} (hs : Live s) (hlo : isLo readPairs off.toNat = true)
    (hstamp : isInst (Reg.CPS_EVTe_STAMP_LO 0, 0x10, 9) off.toNat = false) :
    Completes (.pairLoRead p off) s (fun t =>
      t.dev.out = .regData p (s.dev.standing p off.toNat 0) :: s.dev.out ∧
      Tbl.find? (t.dev.port p).latch off.toNat = some (s.dev.standing p (off.toNat + 4) 0) ∧
      t.dev.port p.other = s.dev.port p.other ∧ t.dev.regs = s.dev.regs) :=
  completes_of_act hs (exec_pairLoRead_of_lo p s hlo hstamp) ⟨rfl, by simp, by simp, rfl⟩

theorem pairLoWrite_pends {s : State} {p : Port} {off : BitVec 25} {v : Word} (hs : Live s)
    (hlo : isLo writePairs off.toNat = true) (hf : foreignBlock p off.toNat = false)
    (ho : ownerChecked off.toNat = true → (s.dev.port p).lost = false) (hw : s.dev.writeOk p off.toNat v = true) :
    Completes (.pairLoWrite p off v) s (fun t => t.dev.regs = s.dev.regs ∧
      Tbl.find? (t.dev.port p).pairLo off.toNat = some (v, true) ∧ t.dev.port p.other = s.dev.port p.other ∧
      t.dev.mem = s.dev.mem) := by
  refine completes_of_act hs (exec_pairLoWrite p off v s) ?_
  simp [hlo, Dev.pairLoWrite_of_writeOk hf ho hw]

theorem pairHiWrite_applies {s : State} {p : Port} {lo : Word} (v : Word) (hs : Live s)
    (hlo : Tbl.find? (s.dev.port p).pairLo Reg.GLB_APPLY_TIME_LO = some (lo, true)) :
    Completes (.pairHiWrite p (BitVec.ofNat 25 Reg.GLB_APPLY_TIME_HI) v) s (fun t =>
      t.dev.regP p Reg.GLB_APPLY_TIME_LO = lo ∧ t.dev.regP p Reg.GLB_APPLY_TIME_HI = v ∧
      Tbl.find? (t.dev.port p).pairLo Reg.GLB_APPLY_TIME_LO = some (lo, false) ∧
      t.dev.port p.other = s.dev.port p.other ∧
      (∀ k, k ≠ regKey p Reg.GLB_APPLY_TIME_LO → k ≠ regKey p Reg.GLB_APPLY_TIME_HI → t.dev.word k = s.dev.word k)) := by
  have hkeys : regKey p Reg.GLB_APPLY_TIME_HI ≠ regKey p Reg.GLB_APPLY_TIME_LO := by cases p <;> decide
  refine completes_of_act hs (exec_pairHiWrite p _ v s) ?_
  rw [if_pos (by decide)]
  simp only [show (BitVec.ofNat 25 Reg.GLB_APPLY_TIME_HI).toNat = Reg.GLB_APPLY_TIME_HI from rfl,
    Dev.pairHiWrite_GLB_APPLY_TIME v hlo]
  refine ⟨?lo, ?hi, by simp, by simp, fun k hkl hkh => ?others⟩
  case lo => simp [Dev.regP_setRegP, hkeys]
  case hi => simp [Dev.regP_setRegP]
  case others => simp [Dev.word_setRegP, Ne.symm hkl, Ne.symm hkh]

theorem registerWrite_unassigned {s : State} {off : BitVec 25} (p : Port) (v : Word) (hs : Live s)
    (hr : regRow? off.toNat = none) : Completes (.registerWrite p off v) s (fun t => t = after s s.dev) :=
  completes_of_act hs (exec_registerWrite p off v s) (by simp [Dev.regWrite, hr])

theorem registerWrite_PM_EVENT {s : State} (p : Port) (v : Word) (hs : Live s) :
    Completes (.registerWrite p (BitVec.ofNat 25 Reg.PM_EVENT) v) s (fun t =>
      t.dev.reg Reg.PM_EVENT = s.dev.reg Reg.PM_EVENT &&& ~~~ (v &&& pmEventRow.accMask .w1c) ∧
      ∀ o, o ≠ Reg.PM_EVENT → t.dev.reg o = s.dev.reg o) := by
  refine completes_of_act hs (exec_registerWrite p _ v s) ?_
  simp only [show (BitVec.ofNat 25 Reg.PM_EVENT).toNat = Reg.PM_EVENT from rfl, Dev.regWrite_PM_EVENT, after_reg]
  exact ⟨Dev.reg_setReg_self _ _ _, fun o ho => by rw [Dev.reg_setReg, if_neg (Ne.symm ho)]⟩

/-- Settles O27, access by access: a bad one, the reads with a side effect, the halves of a pair, the plain writes. -/
theorem hostRegisterAccesses : Obligations.HostRegisterAccesses := by
  unfold Obligations.HostRegisterAccesses
  refine ⟨fun s p hs => ⟨completes_of_act hs (exec_bar0BadAccess p s) rfl, ?rc, ?loRead⟩, fun s p v hs => ⟨?loWrite, ?hiWrite, ?unassigned, ?w1c⟩⟩
  case rc => exact fun off r hr hrc hf => rcRead_clears hs hr hrc hf
  case loRead => exact fun off hlo hstamp => pairLoRead_latches hs hlo hstamp
  case loWrite => exact fun off hlo hf ho hw => pairLoWrite_pends hs hlo hf ho hw
  case hiWrite => exact fun lo hlo => pairHiWrite_applies v hs hlo
  case unassigned => exact fun off hr => registerWrite_unassigned p v hs hr
  case w1c =>
    rw [regRow?_PM_EVENT]
    exact registerWrite_PM_EVENT p v hs

end Sys2Proof.Machine
